-- ==== Sys2Proof/Word.lean ====
section
/-! DEFINITION. The words of TROC16: the 16-bit half-word, the byte the memory list is made of, the register selector,
the data types, and the content of one register (10_state.md R20, R23, R24). -/

namespace Sys2Proof

/-- A half-word: the unit of data, of addresses and of the program counter (00_scope.md R6). -/
abbrev Word := BitVec 16

/-- One byte of the memory list; half of a half-word (log 1). -/
abbrev Byte := BitVec 8

/-- A five-bit register selector, 0 to 31 (10_state.md R20). -/
abbrev Sel := BitVec 5

/-- Selector 28, the residue register (10_state.md R26). -/
abbrev resSel : Sel := 28#5

/-- Selector 31, the program counter (10_state.md R28). -/
abbrev pcSel : Sel := 31#5

/-- The four data types a type tag names (10_state.md R24). -/
inductive DType where
  /-- unsigned -/
  | u
  /-- signed, two's complement (00_scope.md R15) -/
  | s
  /-- float, whose format the source does not define -/
  | f
  /-- float2, the fourth type -/
  | f2
deriving DecidableEq, Repr, Inhabited

/-- Is the type one of the two whose format the spec leaves undefined (93_implementation_defined.md U1, U21)? -/
def DType.isFloat : DType → Bool
  | .u => false
  | .s => false
  | .f => true
  | .f2 => true

/-- What one register of the file holds: 16 data bits, a type tag, an exponent tag (10_state.md R23). -/
structure RegVal where
  data : Word
  ty : DType
  exp : BitVec 2
deriving DecidableEq, Repr, Inhabited

end Sys2Proof
end

