-- ==== Sys2Proof/Config.lean ====
section
/-! DEFINITION. What an implementation fixes and what the spec leaves open: the types of the named parameters of
00_scope.md R4 (their values stand in Machine/Params.lean), and the free values, opaque constants without a body that
no proof can see into. -/

namespace Sys2Proof

/-- The four traps (60_exceptions.md R261). -/
inductive TrapKind where
  /-- raised by the TRAP instruction, location 0x0020 -/
  | trap
  /-- raised by the BKPT instruction, location 0x0040 -/
  | brkpt
  /-- raised by D = 31 where it may not stand, location 0x0060 -/
  | illegal
  /-- raised by an undefined encoding, and for operands whose types differ, location 0x0080 -/
  | undefined
deriving DecidableEq, Repr

/-- The operand order of SUB, SUBI and CMPI (92_eei_decisions.md D31). -/
inductive SubOrder where
  /-- `S - D`, `I - D`, as the description lines say -/
  | reverse
  /-- `D - S`, `D - I` -/
  | forward
deriving DecidableEq, Repr

/-- Where ITAG takes the tag bits from (92_eei_decisions.md D22). -/
inductive ItagSource where
  /-- the tags of the residue register -/
  | residueTag
  /-- the tag word held in the data of the residue register -/
  | residueData
deriving DecidableEq, Repr

/-- What a read of the PC returns, and the base of a relative branch (92_eei_decisions.md D3). -/
inductive PcBase where
  /-- the address of the executing instruction, `cur_pc` -/
  | current
  /-- the address after it, `cur_pc + len` -/
  | next
deriving DecidableEq, Repr

/-- Where a tag word holds the two tags, two bits each (92_eei_decisions.md D2). -/
structure TagLayout where
  /-- the lower bit of the type tag -/
  typeBit : Nat
  /-- the lower bit of the exponent tag -/
  expBit : Nat
deriving DecidableEq, Repr

/-- The four operations that act by the operands' type (43_alu_reg.md R140). -/
inductive ArithOp where
  | add
  | sub
  | mul
  | div
deriving DecidableEq, Repr

namespace Config

/-- P1: the residue after an unsigned SUB or SUBI, as a function of "a borrow occurred" (R151, log 12). -/
opaque usubResidue : Bool → Word

/-- P2: quotient and remainder where the source leaves them open, a function of the operands and their type
(R153, log 13). -/
opaque divCorner : Word → Word → DType → Word × Word

/-- P3: the residue data after SHFT, a function of the old data, n and the type (R202, log 14). -/
opaque shftResidue : Word → BitVec 5 → DType → Word

/-- P4: the residue, data and tags, after CVTU, CVTS, CVTF, CVTF2, a function of the old data and the two types
(R236 to R239, log 15). -/
opaque cvtResidue : Word → DType → DType → RegVal

/-- P5: the value of a read of an internal port other than `SAVE_PORT`, at the given draw (R40, log 16). -/
opaque iregRead : BitVec 5 → Nat → Word

/-- The value of a read of an external port for which the environment's list holds nothing, at the given draw
(R39, log 17). -/
opaque portValue : BitVec 5 → Nat → Word

/-- The 16 data bits of the free value of the given draw (logs 7 to 11). -/
opaque freeData : Nat → Word

/-- The exponent tag of the free value of the given draw, where the spec leaves a float's exponent tag open
(log 7). -/
opaque freeExp : Nat → BitVec 2

end Config

end Sys2Proof
end

