-- ==== Sys2Proof/Machine/Params.lean ====
section
/-! DEFINITION. The named parameters of 00_scope.md R4 at the values the spec gives TROC16 (log 6).  A definition of the
model that depends on one reads it here; `END` is the argument `stop` of Safety.runUntil. -/

namespace Sys2Proof.Machine.Params

/-- `WORD_HW`: the word of ALGNW in half-words (40_eight_bit.md R102, D29). -/
def wordHw : Nat := 2

/-- `LINE_HW`: the line of ALGNC in half-words (40_eight_bit.md R103, D29). -/
def lineHw : Nat := 16

/-- `SAVE_PORT`: the internal port of the save register, -1 (10_state.md R33, D13). -/
def savePort : BitVec 5 := 0b11111#5

/-- `MISMATCH_TRAP`: the trap kind of "types differ" (60_exceptions.md R264, D10). -/
def mismatchTrap : TrapKind := .undefined

/-- `ITAG_SOURCE`: where ITAG takes the tag bits from (47_funct.md R229, D22). -/
def itagSource : ItagSource := .residueTag

/-- `SUB_ORDER`: the operand order of SUB, SUBI, CMPI (90_conflicts.md C6, D31). -/
def subOrder : SubOrder := .reverse

/-- `PC_BASE`: what a read of the PC returns (10_state.md R28, 30_encoding.md R78, D3). -/
def pcBase : PcBase := .current

/-- `TAGWORD_LAYOUT`: the type tag in bits 1:0, the exponent tag in bits 3:2 (41_io_abs.md R118, D2). -/
def tagLayout : TagLayout := { typeBit := 0, expBit := 2 }

/-- `HARVARD`: instructions in a memory of their own (20_memory.md R50, D6). -/
def harvard : Bool := false

/-- The byte address where the memory of the instructions begins: that of the data where the two are one, above it
where `HARVARD` (20_memory.md R50, D6). -/
def codeBase : Nat := if harvard then 131072 else 0

/-- `mem_present`: which addresses are backed by memory, a platform parameter (20_memory.md R57, D25).  DESIGN CHOICE,
unsafe: all 65536 (log 5). -/
def memPresent (_addr : Word) : Bool := true

/-- `TYPE_CODE`: the two bits of each data type (10_state.md R24, D1). -/
def typeCode : DType → BitVec 2
  | .u => 0b00#2
  | .s => 0b01#2
  | .f => 0b10#2
  | .f2 => 0b11#2

/-- The data type of a two-bit code: the inverse of `TYPE_CODE` (10_state.md R24, D1). -/
def typeOfCode (c : BitVec 2) : DType :=
  if c = typeCode .u then .u
  else if c = typeCode .s then .s
  else if c = typeCode .f then .f
  else .f2

/-- The fixed location of a trap (60_exceptions.md R261). -/
def trapLocation : TrapKind → Word
  | .trap => 0x0020#16
  | .brkpt => 0x0040#16
  | .illegal => 0x0060#16
  | .undefined => 0x0080#16

end Sys2Proof.Machine.Params
end

