-- ==== Sys2Proof/Machine/State.lean ====
section
/-! DEFINITION. The state of TROC16 as plain data, the reasons a step can stop, and the machine right after reset
(10_state.md, 20_memory.md R50, 70_reset_and_hazards.md R290, R291). -/

namespace Sys2Proof.Machine

/-- The memory: (byte address, byte) pairs, addresses strictly rising.  The half-word at address `a` is the bytes
`2a` (bits 7:0) and `2a + 1` (bits 15:8) (20_memory.md R50, log 1). -/
abbrev Memory := List Host.Cell

/-- The number of bytes of the memory list: an address space of 65536 half-words (20_memory.md R50), and with `HARVARD`
a second one, which holds the instructions, above it (D6). -/
abbrev byteCount : Nat := Params.codeBase + 131072

/-- What an address that nothing has written reads as: no value (10_state.md R45 "never as zero", log 2). -/
def unlistedByte : Option Byte := none

/-- Are the addresses strictly above `lo` (none: no bound), strictly rising and inside the address space? -/
def Memory.risingFrom : Option Nat → Memory → Bool
  | _, [] => true
  | lo, (a, _) :: m =>
    (match lo with
      | none => true
      | some b => decide (b < a)) && decide (a < byteCount) && Memory.risingFrom (some a) m

/-- The canonical form: strictly rising addresses inside the address space.  An unlisted address reads as no value,
so no entry can equal what an unlisted address reads as. -/
def Memory.wf (m : Memory) : Bool := Memory.risingFrom none m

/-- What crosses the ports, as the model records it (10_state.md R39, R40; log 16, log 17).  A port number is the
five-bit two's complement pattern of n (R38). -/
inductive PortEvent where
  /-- an external port was read and gave the value -/
  | input (port : BitVec 5) (value : Word)
  /-- the value was sent to an external port, or to an internal register that the spec does not define -/
  | output (port : BitVec 5) (value : Word)
deriving DecidableEq, Repr

/-- The state.  `regs` holds the registers of selectors 0 to 30, of which 28 is the residue register; selector 31 is
`pc` (10_state.md R20, R26, R28).  `inputs`, `events` and `freeCount` are the model's own (log 18). -/
structure State where
  /-- selectors 0 to 30: 16 data bits, a type tag, an exponent tag each (R20, R23, R26) -/
  regs : Vector RegVal 31
  /-- the program counter: between instructions, the address of the next first half-word (R28) -/
  pc : Word
  /-- the save register `SAVE` (R33) -/
  save : Word
  /-- the memory `M` (20_memory.md R50) -/
  mem : Memory
  /-- the values the environment will present on external ports, the first of a port being its next (R39) -/
  inputs : List (BitVec 5 × Word)
  /-- what has crossed the ports, newest first (R39, R40) -/
  events : List PortEvent
  /-- how many free values have been drawn -/
  freeCount : Nat
deriving DecidableEq, Repr

/-- Why the machine stops with a fault.  The hardware has no fault of its own: its traps are next states. -/
inductive Fault where
  /-- raised by a fetch, a load or LDT at a half-word that nothing has written since reset (10_state.md R45,
  70_reset_and_hazards.md R291: "a fault of the model"); safe: the hardware goes on with some value -/
  | uninitialisedMemory (addr : Word)
  /-- raised by a fetch, a load or a store at an address where `mem_present` is false (20_memory.md R57,
  93_implementation_defined.md U14: "no step"); safe -/
  | absentMemory (addr : Word)
deriving DecidableEq, Repr

/-- Why an instruction has no meaning. -/
inductive Refusal where
  /-- raised by exec for an instruction that has no meaning yet; safe -/
  | notModelled (mnemonic : String)
  /-- raised by EXTRCT and INSRT for an N with a non-zero reserved bit or a field that runs past bit 15
  (30_encoding.md R93, 46_shift_field.md R200: refuse(field-descriptor)); safe -/
  | fieldDescriptor (N : Word)
  /-- raised by EXTRCT for a uu of F or F2 (30_encoding.md R93, 46_shift_field.md R204: refuse(extract-type)); safe -/
  | extractType (N : Word)
deriving DecidableEq, Repr

/-- The outcome of a step. -/
abbrev Result := Host.Outcome State Fault Refusal

/-- A register after reset.  The spec gives no value (10_state.md R45); zero of type U is the model's (log 3). -/
def resetReg : RegVal := ⟨0x0000#16, .u, 0#2⟩

/-- The machine right after reset: the PC is 0 and nothing else is stated (10_state.md R45, 70_reset_and_hazards.md
R290).  DESIGN CHOICE, unsafe: the registers and `SAVE` hold zero (logs 3, 4).  Memory lists nothing (log 2). -/
def State.reset : State where
  regs := Vector.replicate 31 resetReg
  pc := 0x0000#16
  save := 0x0000#16
  mem := []
  inputs := []
  events := []
  freeCount := 0

end Sys2Proof.Machine
end

