-- ==== Sys2Proof/Machine/Ops.lean ====
section
/-! DEFINITION. The named operations over registers, memory and ports, the free values, and taking a trap and
returning from one. -/

namespace Sys2Proof.Machine

/-! ## Registers -/

/-- What an instruction of `len` half-words reads as the PC, by `PC_BASE`: its own address, or the one after it
(10_state.md R28, D3). -/
def State.pcRead (s : State) (len : Nat) : Word :=
  match Params.pcBase with
  | .current => s.pc
  | .next => s.pc + BitVec.ofNat 16 len

/-- The content of selector `i` as an operand of an instruction of `len` half-words: selector 31 reads as the PC, of
type U and exponent tag 0 (10_state.md R26, R28, R31, R32).  The length, which matters to selector 31 alone and there
only if `PC_BASE` is `next`, is 1 but for ADDI and SUBI: no other long form reads a D = 31. -/
def State.reg (s : State) (i : Sel) (len : Nat := 1) : RegVal :=
  if h : i.toNat < 31 then s.regs[i.toNat] else ⟨s.pcRead len, .u, 0#2⟩

/-- Write data and tags of selector `i`; a write of selector 31 is a control transfer and discards the tags
(10_state.md R26, R30, R31). -/
def State.setReg (s : State) (i : Sel) (v : RegVal) : State :=
  if h : i.toNat < 31 then { s with regs := s.regs.set i.toNat v } else { s with pc := v.data }

/-- The PC past an instruction of `len` half-words, modulo 65536 (10_state.md R29). -/
def State.advance (s : State) (len : Nat) : State := { s with pc := s.pc + BitVec.ofNat 16 len }

/-- A transfer of control (00_scope.md R11). -/
def State.jump (s : State) (target : Word) : State := { s with pc := target }

/-- The write of a by-product to the residue register, dropped when D is the residue register (00_scope.md R12,
10_state.md R26). -/
def State.byProduct (s : State) (d : Sel) (v : RegVal) : State :=
  if d = resSel then s else s.setReg resSel v

/-- `ResidueResult(d, v, k)`: a normal residue result, of type `k` and exponent tag 0 (00_scope.md R12, D17). -/
def State.residueResult (s : State) (d : Sel) (v : Word) (k : DType) : State := s.byProduct d ⟨v, k, 0#2⟩

/-! ## Free values (logs 7 to 11) -/

/-- The free data of the `i`-th next draw. -/
def State.freeData (s : State) (i : Nat) : Word := Config.freeData (s.freeCount + i)

/-- The free register content of the `i`-th next draw, of the type `k`: data and exponent tag are open. -/
def State.freeReg (s : State) (i : Nat) (k : DType) : RegVal := ⟨s.freeData i, k, Config.freeExp (s.freeCount + i)⟩

/-- `n` free values have been drawn. -/
def State.draw (s : State) (n : Nat) : State := { s with freeCount := s.freeCount + n }

/-! ## Memory -/

/-- The byte at a byte address. -/
def Memory.read : Memory → Nat → Option Byte
  | [], _ => unlistedByte
  | (b, v) :: m, a => if a = b then some v else Memory.read m a

/-- Write the byte at a byte address, in the canonical form. -/
def Memory.write : Memory → Nat → Byte → Memory
  | [], a, v => [(a, v)]
  | (b, w) :: m, a, v =>
    if a < b then (a, v) :: (b, w) :: m
    else if a = b then (a, v) :: m
    else (b, w) :: Memory.write m a v

/-- The byte address of bits 7:0 of the half-word at `a` of the address space that begins at the byte `base`; bits 15:8
stand one above (log 1). -/
def byteAddr (a : Word) (base : Nat := 0) : Nat := base + 2 * a.toNat

/-- Write the two bytes of the half-word at `a` of the address space at `base`. -/
def Memory.writeHalf (m : Memory) (a v : Word) (base : Nat := 0) : Memory :=
  Memory.write (Memory.write m (byteAddr a base) (v.extractLsb' 0 8)) (byteAddr a base + 1) (v.extractLsb' 8 8)

/-- The half-word at `a` of the address space at `base`, if both its bytes have a value. -/
def Memory.readHalf (m : Memory) (a : Word) (base : Nat := 0) : Option Word :=
  match Memory.read m (byteAddr a base), Memory.read m (byteAddr a base + 1) with
  | some lo, some hi => some (hi ++ lo)
  | _, _ => none

/-- `MemRead(addr, 1)` (20_memory.md R52), in the address space at `base`; a half-word that nothing has written faults
(10_state.md R45). -/
def State.memRead (s : State) (a : Word) (base : Nat := 0) : Except Fault Word :=
  if Params.memPresent a then
    match Memory.readHalf s.mem a base with
    | some v => .ok v
    | none => .error (.uninitialisedMemory a)
  else .error (.absentMemory a)

/-- The read of a half-word of the instruction stream: `MemRead`, in the memory of the instructions where `HARVARD`
(20_memory.md R50, D6). -/
def State.instRead (s : State) (a : Word) : Except Fault Word := s.memRead a Params.codeBase

/-- `MemWrite(addr, 1, v)` (20_memory.md R53). -/
def State.memWrite (s : State) (a v : Word) : Except Fault State :=
  if Params.memPresent a then .ok { s with mem := Memory.writeHalf s.mem a v } else .error (.absentMemory a)

/-! ## Ports (10_state.md R38 to R41) -/

/-- Is the port internal?  The sign bit of n selects the space (R38, D14). -/
def internalPort (n : BitVec 5) : Bool := n.msb

/-- The next value the environment presents on port `n`, and what it still holds after that. -/
def takeInput (n : BitVec 5) : List (BitVec 5 × Word) → Option (Word × List (BitVec 5 × Word))
  | [] => none
  | (p, v) :: rest =>
    if p = n then some (v, rest)
    else
      match takeInput n rest with
      | some (w, rest') => some (w, (p, v) :: rest')
      | none => none

/-- `PortIn(n)`: the save register, any value for another internal port, the environment's value for an external
port, recorded as an event (R39, R40, R41). -/
def State.portIn (s : State) (n : BitVec 5) : Word × State :=
  if internalPort n then
    if n = Params.savePort then (s.save, s) else (Config.iregRead n s.freeCount, s.draw 1)
  else
    match takeInput n s.inputs with
    | some (v, rest) => (v, { s with inputs := rest, events := .input n v :: s.events })
    | none =>
      (Config.portValue n s.freeCount,
        { s with events := .input n (Config.portValue n s.freeCount) :: s.events, freeCount := s.freeCount + 1 })

/-- `PortOut(n, v)`: a write of the save register; any other write is a recorded event and changes no state of the
spec (R39, R40, R41). -/
def State.portOut (s : State) (n : BitVec 5) (v : Word) : State :=
  if n = Params.savePort then { s with save := v } else { s with events := .output n v :: s.events }

/-! ## Traps and reset -/

/-- `raise Trap(kind)`: exactly `SAVE <- cur_pc` and `PC <- location(kind)` (60_exceptions.md R266, R267). -/
def State.takeTrap (s : State) (kind : TrapKind) : State :=
  { s with save := s.pc, pc := Params.trapLocation kind }

/-- The return from a trap: `pc <- SAVE` and nothing else (60_exceptions.md R272); it is what `IN pc, -1` does. -/
def State.returnFromTrap (s : State) : State := { s with pc := s.save }

/-- The reset input on a running machine: the PC is set to zero (70_reset_and_hazards.md R290) and `SAVE` is not written
(92_eei_decisions.md D27).  DESIGN CHOICE, unsafe (log 22): every other field keeps its value, where the spec leaves
registers, tags, residue register and memory unspecified (R291, 10_state.md R45).  No step takes this event: it comes
from outside. -/
def State.resetEvent (s : State) : State := { s with pc := 0x0000#16 }

/-- The Illegal trap for D = 31 in an instruction that may not have it, tested before any operand is read
(10_state.md R35, 60_exceptions.md R265, R270). -/
def illegalPc (d : Sel) (s : State) (body : Result) : Result :=
  if d = pcSel then .next (s.takeTrap .illegal) else body

end Sys2Proof.Machine
end

