-- ==== Sys2Proof/Machine/Operands.lean ====
section
/-! DEFINITION. The operand forms: the immediate, the branch target, the tag word, the field descriptor, and the
conversion between the memory half-word and the register. -/

namespace Sys2Proof.Machine

/-- `sext_16(n)`: the immediate operand of the short form (30_encoding.md R77, 44_alu_imm.md R160, D8). -/
def sext16 (n : BitVec 5) : Word := n.signExtend 16

/-- `PC + n`: the target of a short-form branch, of one half-word, relative to the branch itself (30_encoding.md R78,
42_branch_move.md R120). -/
def relTarget (s : State) (n : BitVec 5) : Word := s.pcRead 1 + sext16 n

/-- `TagWord(i)`: the two tags at the places of `TAGWORD_LAYOUT`, every other bit zero (41_io_abs.md R118, D2). -/
def tagWord (r : RegVal) : Word :=
  ((Params.typeCode r.ty).setWidth 16 <<< Params.tagLayout.typeBit) ||| (r.exp.setWidth 16 <<< Params.tagLayout.expBit)

/-- `SetTags(i, w)`: the register content with the tags that the tag word carries; its other bits are ignored
(41_io_abs.md R118, D2). -/
def withTagWord (data w : Word) : RegVal :=
  ⟨data, Params.typeOfCode (w.extractLsb' Params.tagLayout.typeBit 2), w.extractLsb' Params.tagLayout.expBit 2⟩

/-! ## The field descriptor of EXTRCT and INSRT (30_encoding.md R86, 46_shift_field.md R200) -/

/-- A field: its type, its width 1 to 16, its lowest bit. -/
structure FieldDesc where
  uu : DType
  width : Nat
  start : Nat
deriving DecidableEq, Repr

/-- `W = 16 if N[9:6] = 0 else N[9:6]` (R200). -/
def fieldWidth (N : Word) : Nat := if N.extractLsb' 6 4 = 0#4 then 16 else (N.extractLsb' 6 4).toNat

/-- `M = N[3:0]` (R200). -/
def fieldStart (N : Word) : Nat := (N.extractLsb' 0 4).toNat

/-- The descriptor, defined when the reserved bits are zero and the field ends at bit 15 or below (R93, R200). -/
def fieldDesc (N : Word) : Option FieldDesc :=
  if N.extractLsb' 10 4 = 0#4 ∧ N.extractLsb' 4 2 = 0#2 ∧ fieldStart N + fieldWidth N ≤ 16 then
    some ⟨Params.typeOfCode (N.extractLsb' 14 2), fieldWidth N, fieldStart N⟩
  else none

/-- `mask(W, M)`: ones in bits `M + W - 1` down to `M` (R200). -/
def fieldMask (W M : Nat) : Word := BitVec.ofNat 16 ((2 ^ W - 1) * 2 ^ M)

/-- The `W` bits of `x` from bit `M` up, right-aligned (46_shift_field.md R204). -/
def fieldGet (x : Word) (W M : Nat) : Word := (x >>> M) &&& fieldMask W 0

/-- A right-aligned field sign extended from bit `W - 1` (46_shift_field.md R204). -/
def fieldSignExtend (field : Word) (W : Nat) : Word :=
  if field.getLsbD (W - 1) then field ||| ~~~fieldMask W 0 else field

/-- `x` with its field replaced by the low bits of `v` (46_shift_field.md R206). -/
def fieldPut (x v : Word) (W M : Nat) : Word := (x &&& ~~~fieldMask W M) ||| ((v <<< M) &&& fieldMask W M)

/-! ## Memory format and register format (20_memory.md R64, D24) -/

/-- The data that a memory half-word becomes in a register of type `k`, and the state after: the half-word itself for
U and S; for F and F2 a free value, the conversion being undefined (log 7). -/
def State.toRegister (s : State) (v : Word) (k : DType) : Word × State :=
  if k.isFloat then (s.freeData 0, s.draw 1) else (v, s)

/-- What a register becomes in memory, and the state after: its data for U and S; for F and F2 a free value (log 7). -/
def State.toMemory (s : State) (r : RegVal) : Word × State :=
  if r.ty.isFloat then (s.freeData 0, s.draw 1) else (r.data, s)

end Sys2Proof.Machine
end

