-- ==== Sys2Proof/Machine/Flags.lean ====
section
/-! DEFINITION. The integer cores of 43_alu_reg.md R150 to R153 with the residue each leaves (TROC16 has no flag
register: 10_state.md R27), and the operations shared by the arithmetic instructions. -/

namespace Sys2Proof.Machine

/-- The signed carry of an exact result: +1, -1 or 0 (R150, R151, D18). -/
def signedCarry (v : Int) : Word :=
  if v > 32767 then 0x0001#16 else if v < -32768 then 0xFFFF#16 else 0x0000#16

/-- `AddCore` for U: the sum and the carry 0 or 1 (R150). -/
def addU (a b : Word) : Word × Word :=
  (BitVec.ofNat 16 (a.toNat + b.toNat), if a.toNat + b.toNat > 65535 then 0x0001#16 else 0x0000#16)

/-- `AddCore` for S (R150). -/
def addS (a b : Word) : Word × Word := (BitVec.ofInt 16 (a.toInt + b.toInt), signedCarry (a.toInt + b.toInt))

/-- `SubCore` for U: the difference and the open residue of "a borrow occurred" (R151, P1). -/
def subU (a b : Word) : Word × Word :=
  (BitVec.ofInt 16 ((a.toNat : Int) - b.toNat), Config.usubResidue (decide (a.toNat < b.toNat)))

/-- `SubCore` for S (R151). -/
def subS (a b : Word) : Word × Word := (BitVec.ofInt 16 (a.toInt - b.toInt), signedCarry (a.toInt - b.toInt))

/-- `MulCore` for U: the two halves of the 32-bit product (R152). -/
def mulU (a b : Word) : Word × Word :=
  (BitVec.ofNat 16 (a.toNat * b.toNat % 65536), BitVec.ofNat 16 (a.toNat * b.toNat / 65536))

/-- `MulCore` for S: the two halves of the 32-bit two's complement pattern of the product (R152). -/
def mulS (a b : Word) : Word × Word :=
  let p : BitVec 32 := BitVec.ofInt 32 (a.toInt * b.toInt)
  (p.extractLsb' 0 16, p.extractLsb' 16 16)

/-- `DivCore` for U: quotient and remainder; division by zero is open (R153, P2). -/
def divU (a b : Word) : Word × Word :=
  if b.toNat ≠ 0 then (BitVec.ofNat 16 (a.toNat / b.toNat), BitVec.ofNat 16 (a.toNat % b.toNat))
  else Config.divCorner a b .u

/-- `DivCore` for S: determined when no operand is negative, and when the division is exact and not -32768 / -1;
every other case is open (R153, P2). -/
def divS (a b : Word) : Word × Word :=
  if 0 ≤ a.toInt ∧ 0 < b.toInt then (BitVec.ofInt 16 (a.toInt / b.toInt), BitVec.ofInt 16 (a.toInt % b.toInt))
  else if b.toInt ≠ 0 ∧ a.toInt % b.toInt = 0 ∧ ¬(a.toInt = -32768 ∧ b.toInt = -1) then
    (BitVec.ofInt 16 (a.toInt / b.toInt), 0x0000#16)
  else Config.divCorner a b .s

/-- Result and by-product of an operation on operands of type U. -/
def arithU : ArithOp → Word → Word → Word × Word
  | .add => addU
  | .sub => subU
  | .mul => mulU
  | .div => divU

/-- Result and by-product of an operation on operands of type S. -/
def arithS : ArithOp → Word → Word → Word × Word
  | .add => addS
  | .sub => subS
  | .mul => mulS
  | .div => divS

/-- The register pair an operation on floats leaves.  The format is undefined: D is a free value of its type, its
exponent tag included, and so are the data of the residue; the tags of the residue are those of every normal residue
result (R140, 00_scope.md R12, log 7). -/
def State.floatResult (s : State) (len : Nat) (d : Sel) (k : DType) : Result :=
  .next ((((s.draw 2).advance len).setReg d (s.freeReg 0 k)).residueResult d (s.freeData 1) k)

/-- An arithmetic instruction of `len` half-words on the operands `a` and `b`, in the order of its core, both of the
type of D: D receives the result and keeps its tags, the residue register the by-product (R140, R142 to R145,
R162 to R165). -/
def State.arith (s : State) (op : ArithOp) (len : Nat) (d : Sel) (a b : Word) : Result :=
  let D := s.reg d
  match D.ty with
  | .u => .next (((s.advance len).setReg d ⟨(arithU op a b).1, .u, D.exp⟩).residueResult d (arithU op a b).2 .u)
  | .s => .next (((s.advance len).setReg d ⟨(arithS op a b).1, .s, D.exp⟩).residueResult d (arithS op a b).2 .s)
  | .f => s.floatResult len d .f
  | .f2 => s.floatResult len d .f2

/-- The operands of a subtraction in the order of `SUB_ORDER`: `other - D` when reverse (D31, 90_conflicts.md C6). -/
def subOperands (dv other : Word) : Word × Word :=
  match Params.subOrder with
  | .reverse => (other, dv)
  | .forward => (dv, other)

/-- "if types differ is currently unimplemented trap" (R141, 60_exceptions.md R264). -/
def State.sameType (s : State) (d r : Sel) (body : Result) : Result :=
  if (s.reg d).ty = (s.reg r).ty then body else .next (s.takeTrap Params.mismatchTrap)

/-- A bitwise instruction: D receives the pattern and keeps its tags, whatever the types (R146 to R148, D19). -/
def State.setData (s : State) (len : Nat) (d : Sel) (v : Word) : Result :=
  .next ((s.advance len).setReg d ⟨v, (s.reg d).ty, (s.reg d).exp⟩)

/-- The main result of CMP, CMPI, EXTRCT, TAG and the fLD functions goes to the residue register, whatever D is
(10_state.md R34). -/
def State.setResidue (s : State) (len : Nat) (v : RegVal) : Result := .next ((s.advance len).setReg resSel v)

end Sys2Proof.Machine
end

