-- ==== Sys2Proof/Machine/AluImm.lean ====
section
/-! DEFINITION. ADDI, SUBI, MULI, DIVI, ANDI, ORI, XORI, CMPI (44_alu_imm.md).  I is the sign-extended n in the short
form and N in the long form, and takes D's type (R160). -/

namespace Sys2Proof.Machine

/-- `D <- I - D` in the order of `SUB_ORDER` (R163). -/
def State.subImm (s : State) (len : Nat) (d : Sel) (I : Word) : Result :=
  s.arith .sub len d (subOperands (s.reg d len).data I).1 (subOperands (s.reg d len).data I).2

/-- `res <- I - D` in the order of `SUB_ORDER`, of D's type and exponent tag 0; for a float D the difference is a free
value (R169, log 7). -/
def State.cmpImm (s : State) (len : Nat) (d : Sel) (I : Word) : Result :=
  if (s.reg d).ty.isFloat then (s.draw 1).setResidue len ⟨s.freeData 0, (s.reg d).ty, 0#2⟩
  else
    s.setResidue len
      ⟨(subOperands (s.reg d).data I).1 - (subOperands (s.reg d).data I).2, (s.reg d).ty, 0#2⟩

/-- ADDI, short form; with D = 31 the unconditional relative branch (R162). -/
def execAddiShort (d : Sel) (n : BitVec 5) (s : State) : Result := s.arith .add 1 d (s.reg d).data (sext16 n)

/-- ADDI, long form (R162). -/
def execAddiLong (d : Sel) (N : Word) (s : State) : Result := s.arith .add 2 d (s.reg d 2).data N

/-- SUBI, short form (R163). -/
def execSubiShort (d : Sel) (n : BitVec 5) (s : State) : Result := s.subImm 1 d (sext16 n)

/-- SUBI, long form (R163). -/
def execSubiLong (d : Sel) (N : Word) (s : State) : Result := s.subImm 2 d N

/-- MULI, short form (R164). -/
def execMuliShort (d : Sel) (n : BitVec 5) (s : State) : Result :=
  illegalPc d s (s.arith .mul 1 d (s.reg d).data (sext16 n))

/-- MULI, long form (R164). -/
def execMuliLong (d : Sel) (N : Word) (s : State) : Result := illegalPc d s (s.arith .mul 2 d (s.reg d).data N)

/-- DIVI, short form (R165). -/
def execDiviShort (d : Sel) (n : BitVec 5) (s : State) : Result :=
  illegalPc d s (s.arith .div 1 d (s.reg d).data (sext16 n))

/-- DIVI, long form (R165). -/
def execDiviLong (d : Sel) (N : Word) (s : State) : Result := illegalPc d s (s.arith .div 2 d (s.reg d).data N)

/-- ANDI, short form (R166). -/
def execAndiShort (d : Sel) (n : BitVec 5) (s : State) : Result :=
  illegalPc d s (s.setData 1 d ((s.reg d).data &&& sext16 n))

/-- ANDI, long form (R166). -/
def execAndiLong (d : Sel) (N : Word) (s : State) : Result := illegalPc d s (s.setData 2 d ((s.reg d).data &&& N))

/-- ORI, short form (R167). -/
def execOriShort (d : Sel) (n : BitVec 5) (s : State) : Result :=
  illegalPc d s (s.setData 1 d ((s.reg d).data ||| sext16 n))

/-- ORI, long form (R167). -/
def execOriLong (d : Sel) (N : Word) (s : State) : Result := illegalPc d s (s.setData 2 d ((s.reg d).data ||| N))

/-- XORI, short form (R168). -/
def execXoriShort (d : Sel) (n : BitVec 5) (s : State) : Result :=
  illegalPc d s (s.setData 1 d ((s.reg d).data ^^^ sext16 n))

/-- XORI, long form (R168). -/
def execXoriLong (d : Sel) (N : Word) (s : State) : Result := illegalPc d s (s.setData 2 d ((s.reg d).data ^^^ N))

/-- CMPI, short form (R169). -/
def execCmpiShort (d : Sel) (n : BitVec 5) (s : State) : Result := illegalPc d s (s.cmpImm 1 d (sext16 n))

/-- CMPI, long form (R169). -/
def execCmpiLong (d : Sel) (N : Word) (s : State) : Result := illegalPc d s (s.cmpImm 2 d N)

end Sys2Proof.Machine
end

