-- ==== Sys2Proof/Machine/AluReg.lean ====
section
/-! DEFINITION. ADD, SUB, MUL, DIV, AND, OR, XOR, CMP (43_alu_reg.md). -/

namespace Sys2Proof.Machine

/-- ADD: `D <- D + S`; with D = 31 a relative branch (R142). -/
def execAdd (d r : Sel) (s : State) : Result := s.sameType d r (s.arith .add 1 d (s.reg d).data (s.reg r).data)

/-- SUB: `D <- S - D` (R143, 90_conflicts.md C6). -/
def execSub (d r : Sel) (s : State) : Result :=
  s.sameType d r
    (s.arith .sub 1 d (subOperands (s.reg d).data (s.reg r).data).1 (subOperands (s.reg d).data (s.reg r).data).2)

/-- MUL: `D <- D * S`, the upper half to the residue register (R144). -/
def execMul (d r : Sel) (s : State) : Result :=
  illegalPc d s (s.sameType d r (s.arith .mul 1 d (s.reg d).data (s.reg r).data))

/-- DIV: `D <- D / S`, the remainder to the residue register (R145). -/
def execDiv (d r : Sel) (s : State) : Result :=
  illegalPc d s (s.sameType d r (s.arith .div 1 d (s.reg d).data (s.reg r).data))

/-- AND (R146). -/
def execAnd (d r : Sel) (s : State) : Result := illegalPc d s (s.setData 1 d ((s.reg d).data &&& (s.reg r).data))

/-- OR (R147). -/
def execOr (d r : Sel) (s : State) : Result := illegalPc d s (s.setData 1 d ((s.reg d).data ||| (s.reg r).data))

/-- XOR (R148). -/
def execXor (d r : Sel) (s : State) : Result := illegalPc d s (s.setData 1 d ((s.reg d).data ^^^ (s.reg r).data))

/-- CMP: `res <- D - S` of D's type and exponent tag 0.  The spec states no difference for operands of different types
or of a float type: there it is a free value (R149, 93_implementation_defined.md U5, log 8). -/
def execCmp (d r : Sel) (s : State) : Result :=
  illegalPc d s
    (if (s.reg d).ty = (s.reg r).ty ∧ (s.reg d).ty.isFloat = false then
      s.setResidue 1 ⟨(s.reg d).data - (s.reg r).data, (s.reg d).ty, 0#2⟩
    else (s.draw 1).setResidue 1 ⟨s.freeData 0, (s.reg d).ty, 0#2⟩)

end Sys2Proof.Machine
end

