-- ==== Sys2Proof/Machine/BranchMove.lean ====
section
/-! DEFINITION. BSR, MOV, BRZ, BRNZ, BRP, BRM (42_branch_move.md).  The short form branches to `cur_pc + n`, the long
form to N (R120). -/

namespace Sys2Proof.Machine

/-- Branch to the subroutine at `target`; the address after the instruction goes to D, of type U (R122). -/
def State.call (s : State) (len : Nat) (d : Sel) (target : Word) : Result :=
  illegalPc d s (.next ((s.setReg d ⟨(s.advance len).pc, .u, 0#2⟩).jump target))

/-- Branch to `target` if the test of D holds, else go on (R124 to R127). -/
def State.branchIf (s : State) (len : Nat) (d : Sel) (test : Word → Bool) (target : Word) : Result :=
  illegalPc d s (.next (if test (s.reg d).data then s.jump target else s.advance len))

/-- "if D is zero": the 16 data bits (R124, D30). -/
def isZero (x : Word) : Bool := x == 0x0000#16

/-- "if D is non-zero" (R125). -/
def isNonZero (x : Word) : Bool := !isZero x

/-- "if D is positive (MSB is zero)" (R126). -/
def isPlus (x : Word) : Bool := !x.getLsbD 15

/-- "if D is negative (MSB is one)" (R127). -/
def isMinus (x : Word) : Bool := x.getLsbD 15

/-- BSR, short form (R122). -/
def execBsrShort (d : Sel) (n : BitVec 5) (s : State) : Result := s.call 1 d (relTarget s n)

/-- BSR, long form (R122). -/
def execBsrLong (d : Sel) (N : Word) (s : State) : Result := s.call 2 d N

/-- MOV: data and tags of S to D; with D = 31 the indirect jump (R123). -/
def execMov (d r : Sel) (s : State) : Result := .next ((s.advance 1).setReg d (s.reg r))

/-- BRZ, short form (R124). -/
def execBrzShort (d : Sel) (n : BitVec 5) (s : State) : Result := s.branchIf 1 d isZero (relTarget s n)

/-- BRZ, long form (R124). -/
def execBrzLong (d : Sel) (N : Word) (s : State) : Result := s.branchIf 2 d isZero N

/-- BRNZ, short form (R125). -/
def execBrnzShort (d : Sel) (n : BitVec 5) (s : State) : Result := s.branchIf 1 d isNonZero (relTarget s n)

/-- BRNZ, long form (R125). -/
def execBrnzLong (d : Sel) (N : Word) (s : State) : Result := s.branchIf 2 d isNonZero N

/-- BRP, short form (R126). -/
def execBrpShort (d : Sel) (n : BitVec 5) (s : State) : Result := s.branchIf 1 d isPlus (relTarget s n)

/-- BRP, long form (R126). -/
def execBrpLong (d : Sel) (N : Word) (s : State) : Result := s.branchIf 2 d isPlus N

/-- BRM, short form (R127). -/
def execBrmShort (d : Sel) (n : BitVec 5) (s : State) : Result := s.branchIf 1 d isMinus (relTarget s n)

/-- BRM, long form (R127). -/
def execBrmLong (d : Sel) (N : Word) (s : State) : Result := s.branchIf 2 d isMinus N

end Sys2Proof.Machine
end

