-- ==== Sys2Proof/Machine/EightBit.lean ====
section
/-! DEFINITION. The 8-bit instructions TRAP, BKPT, ALGNW, ALGNC (40_eight_bit.md), and the undefined half-words with
bit 0 = 0 (30_encoding.md R92). -/

namespace Sys2Proof.Machine

/-- The smallest multiple of `unit`, a power of two, that is at least `next` (40_eight_bit.md R102, R103). -/
def alignUp (next : Word) (unit : Nat) : Word := (next + BitVec.ofNat 16 (unit - 1)) &&& ~~~BitVec.ofNat 16 (unit - 1)

/-- TRAP raises the TRAP trap, which is its whole effect (R100). -/
def execTrap (s : State) : Result := .next (s.takeTrap .trap)

/-- BKPT raises the BRKPT trap (R101). -/
def execBkpt (s : State) : Result := .next (s.takeTrap .brkpt)

/-- ALGNW: "add one to next PC and clear LSB" for the word of `WORD_HW` half-words (R102). -/
def execAlgnw (s : State) : Result := .next (s.jump (alignUp (s.pc + 1#16) Params.wordHw))

/-- ALGNC: "add 15 to next PC and clear four LSBs" for the line of `LINE_HW` half-words (R103). -/
def execAlgnc (s : State) : Result := .next (s.jump (alignUp (s.pc + 1#16) Params.lineHw))

/-- An undefined first half-word raises the Undefined-instruction trap, whatever its other bits (R92 (a),
60_exceptions.md R263). -/
def execUndefinedBit0 (_w : Word) (s : State) : Result := .next (s.takeTrap .undefined)

end Sys2Proof.Machine
end

