-- ==== Sys2Proof/Machine/Funct.lean ====
section
/-! DEFINITION. The one-operand function group FUNCT (47_funct.md), the unused function codes included. -/

namespace Sys2Proof.Machine

/-- A relabelling: the type tag of D becomes `k`, its data and exponent tag stay (R222 to R225, D19). -/
def State.setType (s : State) (d : Sel) (k : DType) : Result :=
  illegalPc d s (.next ((s.advance 1).setReg d ⟨(s.reg d).data, k, (s.reg d).exp⟩))

/-- SETU (R222). -/
def execSetu (d : Sel) (s : State) : Result := s.setType d .u

/-- SETS (R223). -/
def execSets (d : Sel) (s : State) : Result := s.setType d .s

/-- SETF (R224). -/
def execSetf (d : Sel) (s : State) : Result := s.setType d .f

/-- SETF2 (R225). -/
def execSetf2 (d : Sel) (s : State) : Result := s.setType d .f2

/-- The data of D become a free value; both tags of D stay (R226 "Tags unchanged", D19; logs 7, 9, 10). -/
def State.freeD (s : State) (d : Sel) : Result := (s.draw 1).setData 1 d (s.freeData 0)

/-- ABS: the identity on U; the absolute value on S, which the source does not state for 0x8000; open for floats
(R226, 93_implementation_defined.md U8, logs 7, 10). -/
def execAbs (d : Sel) (s : State) : Result :=
  illegalPc d s
    (match (s.reg d).ty with
      | .u => s.setData 1 d (s.reg d).data
      | .s =>
        if (s.reg d).data = 0x8000#16 then s.freeD d
        else s.setData 1 d (if (s.reg d).data.toInt < 0 then BitVec.ofInt 16 (-(s.reg d).data.toInt) else (s.reg d).data)
      | .f => s.freeD d
      | .f2 => s.freeD d)

/-- NABS: the negative absolute value on S; the source does not state it for U; open for floats
(R227, 93_implementation_defined.md U8, logs 7, 9). -/
def execNabs (d : Sel) (s : State) : Result :=
  illegalPc d s
    (match (s.reg d).ty with
      | .s => s.setData 1 d (if 0 < (s.reg d).data.toInt then BitVec.ofInt 16 (-(s.reg d).data.toInt) else (s.reg d).data)
      | .u => s.freeD d
      | .f => s.freeD d
      | .f2 => s.freeD d)

/-- TAG: the tag word of D to the residue register, of type U, whatever D is (R228). -/
def execTag (d : Sel) (s : State) : Result := illegalPc d s (s.setResidue 1 ⟨tagWord (s.reg d), .u, 0#2⟩)

/-- ITAG: the tag bits of the residue register to D, whose data stay (R229, `ITAG_SOURCE`). -/
def execItag (d : Sel) (s : State) : Result :=
  illegalPc d s
    (.next ((s.advance 1).setReg d
      (match Params.itagSource with
        | .residueTag => ⟨(s.reg d).data, (s.reg resSel).ty, (s.reg resSel).exp⟩
        | .residueData => withTagWord (s.reg d).data (s.reg resSel).data)))

/-- The residue register from the half-word whose address is the data of D, as a value of type `k`
(R230, R231: exponent tag 0; R232, R233: for F and F2 data and exponent tag come from the open conversion, log 7). -/
def State.loadResidue (s : State) (d : Sel) (k : DType) : Result :=
  illegalPc d s
    (match s.memRead (s.reg d).data with
      | .error e => .fault e
      | .ok v =>
        (s.toRegister v k).2.setResidue 1 ⟨(s.toRegister v k).1, k, if k.isFloat then (s.freeReg 0 k).exp else 0#2⟩)

/-- fLDU (R230). -/
def execFldu (d : Sel) (s : State) : Result := s.loadResidue d .u

/-- fLDS (R231). -/
def execFlds (d : Sel) (s : State) : Result := s.loadResidue d .s

/-- fLDF (R232). -/
def execFldf (d : Sel) (s : State) : Result := s.loadResidue d .f

/-- fLDF2 (R233). -/
def execFldf2 (d : Sel) (s : State) : Result := s.loadResidue d .f2

/-- fST: the residue register to the half-word whose address is the data of D (R234). -/
def execFst (d : Sel) (s : State) : Result :=
  illegalPc d s
    (match (s.toMemory (s.reg resSel)).2.memWrite (s.reg d).data (s.toMemory (s.reg resSel)).1 with
      | .error e => .fault e
      | .ok t => .next (t.advance 1))

/-- A conversion of D to the type `k`: D becomes `v`, and the residue register receives the open value of P4
(R236 to R239, log 15). -/
def State.convert (s : State) (d : Sel) (draws : Nat) (v : RegVal) (k : DType) : Result :=
  .next ((((s.draw draws).advance 1).setReg d v).byProduct d (Config.cvtResidue (s.reg d).data (s.reg d).ty k))

/-- A conversion whose value is determined: the data bits of D are kept (R236, R237). -/
def State.convertKeep (s : State) (d : Sel) (k : DType) : Result := s.convert d 0 ⟨(s.reg d).data, k, (s.reg d).exp⟩ k

/-- A conversion of an integer that has no counterpart in the type `k`: the data bits are a free value, the type tag is
stated (U9, log 11). -/
def State.convertNoCounterpart (s : State) (d : Sel) (k : DType) : Result :=
  s.convert d 1 ⟨s.freeData 0, k, (s.reg d).exp⟩ k

/-- A conversion from or to a float type: data and exponent tag are free, the type tag is stated (U1, log 7). -/
def State.convertFloat (s : State) (d : Sel) (k : DType) : Result := s.convert d 1 (s.freeReg 0 k) k

/-- CVTU (R236). -/
def execCvtu (d : Sel) (s : State) : Result :=
  illegalPc d s
    (match (s.reg d).ty with
      | .u => s.convertKeep d .u
      | .s => if (s.reg d).data.toInt < 0 then s.convertNoCounterpart d .u else s.convertKeep d .u
      | .f => s.convertFloat d .u
      | .f2 => s.convertFloat d .u)

/-- CVTS (R237). -/
def execCvts (d : Sel) (s : State) : Result :=
  illegalPc d s
    (match (s.reg d).ty with
      | .s => s.convertKeep d .s
      | .u => if (s.reg d).data.toNat > 32767 then s.convertNoCounterpart d .s else s.convertKeep d .s
      | .f => s.convertFloat d .s
      | .f2 => s.convertFloat d .s)

/-- CVTF (R238). -/
def execCvtf (d : Sel) (s : State) : Result := illegalPc d s (s.convertFloat d .f)

/-- CVTF2 (R239). -/
def execCvtf2 (d : Sel) (s : State) : Result := illegalPc d s (s.convertFloat d .f2)

/-! ## The fourteen unused function codes: the Undefined-instruction trap, whatever D is (R240, 60_exceptions.md R263,
R270) -/

/-- FUNCT with the unused code 08 (R240). -/
def execFunctUnused08 (_d : Sel) (s : State) : Result := .next (s.takeTrap .undefined)

/-- FUNCT with the unused code 09 (R240). -/
def execFunctUnused09 (_d : Sel) (s : State) : Result := .next (s.takeTrap .undefined)

/-- FUNCT with the unused code 0A (R240). -/
def execFunctUnused0A (_d : Sel) (s : State) : Result := .next (s.takeTrap .undefined)

/-- FUNCT with the unused code 0B (R240). -/
def execFunctUnused0B (_d : Sel) (s : State) : Result := .next (s.takeTrap .undefined)

/-- FUNCT with the unused code 12 (R240). -/
def execFunctUnused12 (_d : Sel) (s : State) : Result := .next (s.takeTrap .undefined)

/-- FUNCT with the unused code 13 (R240). -/
def execFunctUnused13 (_d : Sel) (s : State) : Result := .next (s.takeTrap .undefined)

/-- FUNCT with the unused code 14 (R240). -/
def execFunctUnused14 (_d : Sel) (s : State) : Result := .next (s.takeTrap .undefined)

/-- FUNCT with the unused code 15 (R240). -/
def execFunctUnused15 (_d : Sel) (s : State) : Result := .next (s.takeTrap .undefined)

/-- FUNCT with the unused code 16 (R240). -/
def execFunctUnused16 (_d : Sel) (s : State) : Result := .next (s.takeTrap .undefined)

/-- FUNCT with the unused code 17 (R240). -/
def execFunctUnused17 (_d : Sel) (s : State) : Result := .next (s.takeTrap .undefined)

/-- FUNCT with the unused code 18 (R240). -/
def execFunctUnused18 (_d : Sel) (s : State) : Result := .next (s.takeTrap .undefined)

/-- FUNCT with the unused code 19 (R240). -/
def execFunctUnused19 (_d : Sel) (s : State) : Result := .next (s.takeTrap .undefined)

/-- FUNCT with the unused code 1A (R240). -/
def execFunctUnused1A (_d : Sel) (s : State) : Result := .next (s.takeTrap .undefined)

/-- FUNCT with the unused code 1B (R240). -/
def execFunctUnused1B (_d : Sel) (s : State) : Result := .next (s.takeTrap .undefined)

end Sys2Proof.Machine
end

