-- ==== Sys2Proof/Machine/LoadStore.lean ====
section
/-! DEFINITION. LDIU, LDIS, LDIF, LDIF2, LD, ST (45_load_imm_mem.md). -/

namespace Sys2Proof.Machine

/-- Load the pattern `I` as a value of the type `k`, U or S, and exponent tag 0 (R180, R181). -/
def State.loadImm (s : State) (len : Nat) (d : Sel) (I : Word) (k : DType) : Result :=
  .next ((s.advance len).setReg d ⟨I, k, 0#2⟩)

/-- Load an immediate in the register format of the float type `k`: "convert I to register format".  The type tag is
stated, the format is not: data and exponent tag are free (R182, R183, log 7). -/
def State.loadImmFloat (s : State) (len : Nat) (d : Sel) (k : DType) : Result :=
  .next (((s.draw 1).advance len).setReg d (s.freeReg 0 k))

/-- LDIU, short form; with D = 31 a jump (R180). -/
def execLdiuShort (d : Sel) (n : BitVec 5) (s : State) : Result := s.loadImm 1 d (sext16 n) .u

/-- LDIU, long form; with D = 31 the unconditional absolute jump (R180). -/
def execLdiuLong (d : Sel) (N : Word) (s : State) : Result := s.loadImm 2 d N .u

/-- LDIS, short form (R181). -/
def execLdisShort (d : Sel) (n : BitVec 5) (s : State) : Result := illegalPc d s (s.loadImm 1 d (sext16 n) .s)

/-- LDIS, long form (R181). -/
def execLdisLong (d : Sel) (N : Word) (s : State) : Result := illegalPc d s (s.loadImm 2 d N .s)

/-- LDIF, short form: D becomes a float whose pattern the spec leaves open (R182). -/
def execLdifShort (d : Sel) (_n : BitVec 5) (s : State) : Result := illegalPc d s (s.loadImmFloat 1 d .f)

/-- LDIF, long form (R182). -/
def execLdifLong (d : Sel) (_N : Word) (s : State) : Result := illegalPc d s (s.loadImmFloat 2 d .f)

/-- LDIF2, short form (R183). -/
def execLdif2Short (d : Sel) (_n : BitVec 5) (s : State) : Result := illegalPc d s (s.loadImmFloat 1 d .f2)

/-- LDIF2, long form (R183). -/
def execLdif2Long (d : Sel) (_N : Word) (s : State) : Result := illegalPc d s (s.loadImmFloat 2 d .f2)

/-- LD: D from the half-word whose address is the data of S, in D's current type; both tags of D stay, for floats too;
with D = 31 the jump through memory (R184). -/
def execLd (d r : Sel) (s : State) : Result :=
  match s.memRead (s.reg r).data with
  | .error e => .fault e
  | .ok v =>
    .next (((s.toRegister v (s.reg d).ty).2.advance 1).setReg d
      ⟨(s.toRegister v (s.reg d).ty).1, (s.reg d).ty, (s.reg d).exp⟩)

/-- ST: D to the half-word whose address is the data of S (R185). -/
def execSt (d r : Sel) (s : State) : Result :=
  illegalPc d s
    (match (s.toMemory (s.reg d)).2.memWrite (s.reg r).data (s.toMemory (s.reg d)).1 with
      | .error e => .fault e
      | .ok t => .next (t.advance 1))

end Sys2Proof.Machine
end

