-- ==== Sys2Proof/Machine/PortAbs.lean ====
section
/-! DEFINITION. IN, LDT, OUT, STT (41_io_abs.md). -/

namespace Sys2Proof.Machine

/-- IN: the value of port n into D, of type U and exponent tag 0; with D = 31 a jump, and with n = `SAVE_PORT` the
return from a trap (R110, 60_exceptions.md R272). -/
def execInPort (d : Sel) (n : BitVec 5) (s : State) : Result :=
  .next ((((s.portIn n).2).advance 1).setReg d ⟨(s.portIn n).1, .u, 0#2⟩)

/-- OUT: the data of D to port n (R114). -/
def execOutPort (d : Sel) (n : BitVec 5) (s : State) : Result :=
  illegalPc d s (.next ((s.portOut n (s.reg d).data).advance 1))

/-- LDT: the data of D from address N, its tags from the tag word at N + 1 (R112). -/
def execLdt (d : Sel) (N : Word) (s : State) : Result :=
  illegalPc d s
    (match s.memRead N with
      | .error e => .fault e
      | .ok v =>
        match s.memRead (N + 1#16) with
        | .error e => .fault e
        | .ok tw => .next ((s.advance 2).setReg d (withTagWord v tw)))

/-- STT: the data of D to address N, its tag word to N + 1 (R116). -/
def execStt (d : Sel) (N : Word) (s : State) : Result :=
  illegalPc d s
    (match s.memWrite N (s.reg d).data with
      | .error e => .fault e
      | .ok s1 =>
        match s1.memWrite (N + 1#16) (tagWord (s.reg d)) with
        | .error e => .fault e
        | .ok s2 => .next (s2.advance 2))

end Sys2Proof.Machine
end

