-- ==== Sys2Proof/Machine/ShiftField.lean ====
section
/-! DEFINITION. SHFT, EXTRCT, INSRT (46_shift_field.md). -/

namespace Sys2Proof.Machine

/-- The right shift of a negative n: logical for U, arithmetic for S (R202, D20). -/
def shiftRight (k : DType) (x : Word) (m : Nat) : Word := if k = .s then x.sshiftRight m else x >>> m

/-- The pattern after a shift by the signed n: left when n is positive, right when it is negative (R202, D20). -/
def shiftData (k : DType) (x : Word) (n : BitVec 5) : Word :=
  if 0 ≤ n.toInt then x <<< n.toInt.toNat else shiftRight k x (-n.toInt).toNat

/-- The data of D after SHFT, and the state after: the shifted pattern for U and S; for a float, where "add signed n to
the exponent" has no defined format, a free value (R202, log 7). -/
def State.shifted (s : State) (r : RegVal) (n : BitVec 5) : Word × State :=
  if r.ty.isFloat then (s.freeData 0, s.draw 1) else (shiftData r.ty r.data n, s)

/-- SHFT: the shifted D, which keeps its tags, and the open residue of P3 with D's type (R202, logs 7, 14). -/
def execShft (d : Sel) (n : BitVec 5) (s : State) : Result :=
  illegalPc d s
    (.next (((((s.shifted (s.reg d) n).2.advance 1).setReg d
      ⟨(s.shifted (s.reg d) n).1, (s.reg d).ty, (s.reg d).exp⟩)).residueResult d
        (Config.shftResidue (s.reg d).data n (s.reg d).ty) (s.reg d).ty))

/-- The value EXTRCT gives for a type, which selects zero or sign extension; a uu of F or F2 is reserved
(R204, 30_encoding.md R93). -/
def extractValue (x : Word) (f : FieldDesc) : Option Word :=
  match f.uu with
  | .u => some (fieldGet x f.width f.start)
  | .s => some (fieldSignExtend (fieldGet x f.width f.start) f.width)
  | .f => none
  | .f2 => none

/-- EXTRCT: the field of D that N describes to the residue register, whatever D is (R204).  A reserved field value in
N has no meaning (R93, logs 19, 20). -/
def execExtrct (d : Sel) (N : Word) (s : State) : Result :=
  illegalPc d s
    (match fieldDesc N with
      | none => .refused (.fieldDescriptor N)
      | some f =>
        match extractValue (s.reg d).data f with
        | none => .refused (.extractType N)
        | some v => s.setResidue 2 ⟨v, f.uu, 0#2⟩)

/-- INSRT: the low bits of the residue register into the field of D that N describes; uu is ignored (R206, D21). -/
def execInsrt (d : Sel) (N : Word) (s : State) : Result :=
  illegalPc d s
    (match fieldDesc N with
      | none => .refused (.fieldDescriptor N)
      | some f => s.setData 2 d (fieldPut (s.reg d).data (s.reg resSel).data f.width f.start))

end Sys2Proof.Machine
end

