-- ==== Sys2Proof/Syntax.lean ====
section
/-! DEFINITION. The instructions of TROC16, one constructor per row of spec/opcode_table.json, in the table's order.
A short and a long form of one mnemonic are two rows and two constructors (30_encoding.md R74, R75, R80).
`d` is the selector D, `s` the selector S, `n` the five-bit signed immediate, `N` the half-word that follows. -/

namespace Sys2Proof

/-- The instruction set: 4 eight-bit instructions (R88), 11 register forms (R73), 20 short (R74) and 21 long (R75)
immediate forms, 17 FUNCT functions and 14 unused function codes (R84), and the undefined half-words (R92). -/
inductive Instr where
  /-- TRAP (R100). -/
  | trap
  /-- BKPT (R101). -/
  | bkpt
  /-- ALGNW (R102). -/
  | algnw
  /-- ALGNC (R103). -/
  | algnc
  /-- ADD rd, rs (R142). -/
  | add (d s : Sel)
  /-- SUB rd, rs (R143). -/
  | sub (d s : Sel)
  /-- MUL rd, rs (R144). -/
  | mul (d s : Sel)
  /-- DIV rd, rs (R145). -/
  | div (d s : Sel)
  /-- AND rd, rs (R146). -/
  | and (d s : Sel)
  /-- OR rd, rs (R147). -/
  | or (d s : Sel)
  /-- XOR rd, rs (R148). -/
  | xor (d s : Sel)
  /-- CMP rd, rs (R149). -/
  | cmp (d s : Sel)
  /-- LD rd, rs (R184). -/
  | ld (d s : Sel)
  /-- ST rd, rs (R185). -/
  | st (d s : Sel)
  /-- MOV rd, rs (R123). -/
  | mov (d s : Sel)
  /-- IN with the five-bit n (R110). -/
  | inPort (d : Sel) (n : BitVec 5)
  /-- LDT with the following N (R112). -/
  | ldt (d : Sel) (N : Word)
  /-- OUT with the five-bit n (R114). -/
  | outPort (d : Sel) (n : BitVec 5)
  /-- STT with the following N (R116). -/
  | stt (d : Sel) (N : Word)
  /-- BSR with the five-bit n (R122). -/
  | bsrShort (d : Sel) (n : BitVec 5)
  /-- BSR with the following N (R122). -/
  | bsrLong (d : Sel) (N : Word)
  /-- BRZ with the five-bit n (R124). -/
  | brzShort (d : Sel) (n : BitVec 5)
  /-- BRZ with the following N (R124). -/
  | brzLong (d : Sel) (N : Word)
  /-- BRNZ with the five-bit n (R125). -/
  | brnzShort (d : Sel) (n : BitVec 5)
  /-- BRNZ with the following N (R125). -/
  | brnzLong (d : Sel) (N : Word)
  /-- BRP with the five-bit n (R126). -/
  | brpShort (d : Sel) (n : BitVec 5)
  /-- BRP with the following N (R126). -/
  | brpLong (d : Sel) (N : Word)
  /-- BRM with the five-bit n (R127). -/
  | brmShort (d : Sel) (n : BitVec 5)
  /-- BRM with the following N (R127). -/
  | brmLong (d : Sel) (N : Word)
  /-- SHFT with the five-bit n (R202). -/
  | shft (d : Sel) (n : BitVec 5)
  /-- EXTRCT with the following N (R204). -/
  | extrct (d : Sel) (N : Word)
  /-- INSRT with the following N (R206). -/
  | insrt (d : Sel) (N : Word)
  /-- LDIU with the five-bit n (R180). -/
  | ldiuShort (d : Sel) (n : BitVec 5)
  /-- LDIU with the following N (R180). -/
  | ldiuLong (d : Sel) (N : Word)
  /-- LDIS with the five-bit n (R181). -/
  | ldisShort (d : Sel) (n : BitVec 5)
  /-- LDIS with the following N (R181). -/
  | ldisLong (d : Sel) (N : Word)
  /-- LDIF with the five-bit n (R182). -/
  | ldifShort (d : Sel) (n : BitVec 5)
  /-- LDIF with the following N (R182). -/
  | ldifLong (d : Sel) (N : Word)
  /-- LDIF2 with the five-bit n (R183). -/
  | ldif2Short (d : Sel) (n : BitVec 5)
  /-- LDIF2 with the following N (R183). -/
  | ldif2Long (d : Sel) (N : Word)
  /-- ADDI with the five-bit n (R162). -/
  | addiShort (d : Sel) (n : BitVec 5)
  /-- ADDI with the following N (R162). -/
  | addiLong (d : Sel) (N : Word)
  /-- SUBI with the five-bit n (R163). -/
  | subiShort (d : Sel) (n : BitVec 5)
  /-- SUBI with the following N (R163). -/
  | subiLong (d : Sel) (N : Word)
  /-- MULI with the five-bit n (R164). -/
  | muliShort (d : Sel) (n : BitVec 5)
  /-- MULI with the following N (R164). -/
  | muliLong (d : Sel) (N : Word)
  /-- DIVI with the five-bit n (R165). -/
  | diviShort (d : Sel) (n : BitVec 5)
  /-- DIVI with the following N (R165). -/
  | diviLong (d : Sel) (N : Word)
  /-- ANDI with the five-bit n (R166). -/
  | andiShort (d : Sel) (n : BitVec 5)
  /-- ANDI with the following N (R166). -/
  | andiLong (d : Sel) (N : Word)
  /-- ORI with the five-bit n (R167). -/
  | oriShort (d : Sel) (n : BitVec 5)
  /-- ORI with the following N (R167). -/
  | oriLong (d : Sel) (N : Word)
  /-- XORI with the five-bit n (R168). -/
  | xoriShort (d : Sel) (n : BitVec 5)
  /-- XORI with the following N (R168). -/
  | xoriLong (d : Sel) (N : Word)
  /-- CMPI with the five-bit n (R169). -/
  | cmpiShort (d : Sel) (n : BitVec 5)
  /-- CMPI with the following N (R169). -/
  | cmpiLong (d : Sel) (N : Word)
  /-- FUNCT function 00: SETU (R222). -/
  | setu (d : Sel)
  /-- FUNCT function 01: SETS (R223). -/
  | sets (d : Sel)
  /-- FUNCT function 02: SETF (R224). -/
  | setf (d : Sel)
  /-- FUNCT function 03: SETF2 (R225). -/
  | setf2 (d : Sel)
  /-- FUNCT function 04: ABS (R226). -/
  | abs (d : Sel)
  /-- FUNCT function 05: NABS (R227). -/
  | nabs (d : Sel)
  /-- FUNCT function 06: TAG (R228). -/
  | tag (d : Sel)
  /-- FUNCT function 07: ITAG (R229). -/
  | itag (d : Sel)
  /-- FUNCT function 0C: FLDU (R230). -/
  | fldu (d : Sel)
  /-- FUNCT function 0D: FLDS (R231). -/
  | flds (d : Sel)
  /-- FUNCT function 0E: FLDF (R232). -/
  | fldf (d : Sel)
  /-- FUNCT function 0F: FLDF2 (R233). -/
  | fldf2 (d : Sel)
  /-- FUNCT function 11: FST (R234). -/
  | fst (d : Sel)
  /-- FUNCT function 1C: CVTU (R236). -/
  | cvtu (d : Sel)
  /-- FUNCT function 1D: CVTS (R237). -/
  | cvts (d : Sel)
  /-- FUNCT function 1E: CVTF (R238). -/
  | cvtf (d : Sel)
  /-- FUNCT function 1F: CVTF2 (R239). -/
  | cvtf2 (d : Sel)
  /-- FUNCT with the unused code 08 (R240). -/
  | functUnused08 (d : Sel)
  /-- FUNCT with the unused code 09 (R240). -/
  | functUnused09 (d : Sel)
  /-- FUNCT with the unused code 0A (R240). -/
  | functUnused0A (d : Sel)
  /-- FUNCT with the unused code 0B (R240). -/
  | functUnused0B (d : Sel)
  /-- FUNCT with the unused code 12 (R240). -/
  | functUnused12 (d : Sel)
  /-- FUNCT with the unused code 13 (R240). -/
  | functUnused13 (d : Sel)
  /-- FUNCT with the unused code 14 (R240). -/
  | functUnused14 (d : Sel)
  /-- FUNCT with the unused code 15 (R240). -/
  | functUnused15 (d : Sel)
  /-- FUNCT with the unused code 16 (R240). -/
  | functUnused16 (d : Sel)
  /-- FUNCT with the unused code 17 (R240). -/
  | functUnused17 (d : Sel)
  /-- FUNCT with the unused code 18 (R240). -/
  | functUnused18 (d : Sel)
  /-- FUNCT with the unused code 19 (R240). -/
  | functUnused19 (d : Sel)
  /-- FUNCT with the unused code 1A (R240). -/
  | functUnused1A (d : Sel)
  /-- FUNCT with the unused code 1B (R240). -/
  | functUnused1B (d : Sel)
  /-- a first half-word with bit 0 = 0 that is no 8-bit instruction (R92). -/
  | undefinedBit0 (w : Word)
deriving DecidableEq, Repr

end Sys2Proof
end

