-- ==== Sys2Proof/Machine/Dispatch.lean ====
section
/-! DEFINITION. exec: one arm per constructor of Instr, each one call of the instruction's meaning. -/

namespace Sys2Proof.Machine

/-- The meaning of an instruction. -/
def exec (i : Instr) (s : State) : Host.Outcome State Fault Refusal :=
  match i with
  | .trap => Sys2Proof.Machine.execTrap s
  | .bkpt => Sys2Proof.Machine.execBkpt s
  | .algnw => Sys2Proof.Machine.execAlgnw s
  | .algnc => Sys2Proof.Machine.execAlgnc s
  | .add d r => Sys2Proof.Machine.execAdd d r s
  | .sub d r => Sys2Proof.Machine.execSub d r s
  | .mul d r => Sys2Proof.Machine.execMul d r s
  | .div d r => Sys2Proof.Machine.execDiv d r s
  | .and d r => Sys2Proof.Machine.execAnd d r s
  | .or d r => Sys2Proof.Machine.execOr d r s
  | .xor d r => Sys2Proof.Machine.execXor d r s
  | .cmp d r => Sys2Proof.Machine.execCmp d r s
  | .ld d r => Sys2Proof.Machine.execLd d r s
  | .st d r => Sys2Proof.Machine.execSt d r s
  | .mov d r => Sys2Proof.Machine.execMov d r s
  | .inPort d n => Sys2Proof.Machine.execInPort d n s
  | .ldt d N => Sys2Proof.Machine.execLdt d N s
  | .outPort d n => Sys2Proof.Machine.execOutPort d n s
  | .stt d N => Sys2Proof.Machine.execStt d N s
  | .bsrShort d n => Sys2Proof.Machine.execBsrShort d n s
  | .bsrLong d N => Sys2Proof.Machine.execBsrLong d N s
  | .brzShort d n => Sys2Proof.Machine.execBrzShort d n s
  | .brzLong d N => Sys2Proof.Machine.execBrzLong d N s
  | .brnzShort d n => Sys2Proof.Machine.execBrnzShort d n s
  | .brnzLong d N => Sys2Proof.Machine.execBrnzLong d N s
  | .brpShort d n => Sys2Proof.Machine.execBrpShort d n s
  | .brpLong d N => Sys2Proof.Machine.execBrpLong d N s
  | .brmShort d n => Sys2Proof.Machine.execBrmShort d n s
  | .brmLong d N => Sys2Proof.Machine.execBrmLong d N s
  | .shft d n => Sys2Proof.Machine.execShft d n s
  | .extrct d N => Sys2Proof.Machine.execExtrct d N s
  | .insrt d N => Sys2Proof.Machine.execInsrt d N s
  | .ldiuShort d n => Sys2Proof.Machine.execLdiuShort d n s
  | .ldiuLong d N => Sys2Proof.Machine.execLdiuLong d N s
  | .ldisShort d n => Sys2Proof.Machine.execLdisShort d n s
  | .ldisLong d N => Sys2Proof.Machine.execLdisLong d N s
  | .ldifShort d n => Sys2Proof.Machine.execLdifShort d n s
  | .ldifLong d N => Sys2Proof.Machine.execLdifLong d N s
  | .ldif2Short d n => Sys2Proof.Machine.execLdif2Short d n s
  | .ldif2Long d N => Sys2Proof.Machine.execLdif2Long d N s
  | .addiShort d n => Sys2Proof.Machine.execAddiShort d n s
  | .addiLong d N => Sys2Proof.Machine.execAddiLong d N s
  | .subiShort d n => Sys2Proof.Machine.execSubiShort d n s
  | .subiLong d N => Sys2Proof.Machine.execSubiLong d N s
  | .muliShort d n => Sys2Proof.Machine.execMuliShort d n s
  | .muliLong d N => Sys2Proof.Machine.execMuliLong d N s
  | .diviShort d n => Sys2Proof.Machine.execDiviShort d n s
  | .diviLong d N => Sys2Proof.Machine.execDiviLong d N s
  | .andiShort d n => Sys2Proof.Machine.execAndiShort d n s
  | .andiLong d N => Sys2Proof.Machine.execAndiLong d N s
  | .oriShort d n => Sys2Proof.Machine.execOriShort d n s
  | .oriLong d N => Sys2Proof.Machine.execOriLong d N s
  | .xoriShort d n => Sys2Proof.Machine.execXoriShort d n s
  | .xoriLong d N => Sys2Proof.Machine.execXoriLong d N s
  | .cmpiShort d n => Sys2Proof.Machine.execCmpiShort d n s
  | .cmpiLong d N => Sys2Proof.Machine.execCmpiLong d N s
  | .setu d => Sys2Proof.Machine.execSetu d s
  | .sets d => Sys2Proof.Machine.execSets d s
  | .setf d => Sys2Proof.Machine.execSetf d s
  | .setf2 d => Sys2Proof.Machine.execSetf2 d s
  | .abs d => Sys2Proof.Machine.execAbs d s
  | .nabs d => Sys2Proof.Machine.execNabs d s
  | .tag d => Sys2Proof.Machine.execTag d s
  | .itag d => Sys2Proof.Machine.execItag d s
  | .fldu d => Sys2Proof.Machine.execFldu d s
  | .flds d => Sys2Proof.Machine.execFlds d s
  | .fldf d => Sys2Proof.Machine.execFldf d s
  | .fldf2 d => Sys2Proof.Machine.execFldf2 d s
  | .fst d => Sys2Proof.Machine.execFst d s
  | .cvtu d => Sys2Proof.Machine.execCvtu d s
  | .cvts d => Sys2Proof.Machine.execCvts d s
  | .cvtf d => Sys2Proof.Machine.execCvtf d s
  | .cvtf2 d => Sys2Proof.Machine.execCvtf2 d s
  | .functUnused08 d => Sys2Proof.Machine.execFunctUnused08 d s
  | .functUnused09 d => Sys2Proof.Machine.execFunctUnused09 d s
  | .functUnused0A d => Sys2Proof.Machine.execFunctUnused0A d s
  | .functUnused0B d => Sys2Proof.Machine.execFunctUnused0B d s
  | .functUnused12 d => Sys2Proof.Machine.execFunctUnused12 d s
  | .functUnused13 d => Sys2Proof.Machine.execFunctUnused13 d s
  | .functUnused14 d => Sys2Proof.Machine.execFunctUnused14 d s
  | .functUnused15 d => Sys2Proof.Machine.execFunctUnused15 d s
  | .functUnused16 d => Sys2Proof.Machine.execFunctUnused16 d s
  | .functUnused17 d => Sys2Proof.Machine.execFunctUnused17 d s
  | .functUnused18 d => Sys2Proof.Machine.execFunctUnused18 d s
  | .functUnused19 d => Sys2Proof.Machine.execFunctUnused19 d s
  | .functUnused1A d => Sys2Proof.Machine.execFunctUnused1A d s
  | .functUnused1B d => Sys2Proof.Machine.execFunctUnused1B d s
  | .undefinedBit0 w => Sys2Proof.Machine.execUndefinedBit0 w s

end Sys2Proof.Machine
end

