-- ==== Sys2Proof/WellFormed.lean ====
section
/-! DEFINITION. Which instruction terms stand for an encoding: the five-bit n is never the escape `10000`
(30_encoding.md R74, R77), and the undefined half-words are those of R92 (a). -/

namespace Sys2Proof

/-- The value of bits 15:11 that says that a half-word N follows (30_encoding.md R74). -/
abbrev escape : BitVec 5 := 0b10000#5

/-- n is a value from -15 to +15 (30_encoding.md R77). -/
def shortImm (n : BitVec 5) : Bool := n != escape

/-- A first half-word with bit 0 = 0 that is none of the four 8-bit instructions (30_encoding.md R88, R92). -/
def undefinedHalf (w : Word) : Bool :=
  !w.getLsbD 0 && w != 0x0000#16 && w != 0x0040#16 && w != 0x0080#16 && w != 0x00C0#16

/-- The term has an encoding: every short immediate is in range, an undefined half-word is undefined. -/
def Instr.wf : Instr → Bool
  | .trap => true
  | .bkpt => true
  | .algnw => true
  | .algnc => true
  | .add _ _ => true
  | .sub _ _ => true
  | .mul _ _ => true
  | .div _ _ => true
  | .and _ _ => true
  | .or _ _ => true
  | .xor _ _ => true
  | .cmp _ _ => true
  | .ld _ _ => true
  | .st _ _ => true
  | .mov _ _ => true
  | .inPort _ n => shortImm n
  | .ldt _ _ => true
  | .outPort _ n => shortImm n
  | .stt _ _ => true
  | .bsrShort _ n => shortImm n
  | .bsrLong _ _ => true
  | .brzShort _ n => shortImm n
  | .brzLong _ _ => true
  | .brnzShort _ n => shortImm n
  | .brnzLong _ _ => true
  | .brpShort _ n => shortImm n
  | .brpLong _ _ => true
  | .brmShort _ n => shortImm n
  | .brmLong _ _ => true
  | .shft _ n => shortImm n
  | .extrct _ _ => true
  | .insrt _ _ => true
  | .ldiuShort _ n => shortImm n
  | .ldiuLong _ _ => true
  | .ldisShort _ n => shortImm n
  | .ldisLong _ _ => true
  | .ldifShort _ n => shortImm n
  | .ldifLong _ _ => true
  | .ldif2Short _ n => shortImm n
  | .ldif2Long _ _ => true
  | .addiShort _ n => shortImm n
  | .addiLong _ _ => true
  | .subiShort _ n => shortImm n
  | .subiLong _ _ => true
  | .muliShort _ n => shortImm n
  | .muliLong _ _ => true
  | .diviShort _ n => shortImm n
  | .diviLong _ _ => true
  | .andiShort _ n => shortImm n
  | .andiLong _ _ => true
  | .oriShort _ n => shortImm n
  | .oriLong _ _ => true
  | .xoriShort _ n => shortImm n
  | .xoriLong _ _ => true
  | .cmpiShort _ n => shortImm n
  | .cmpiLong _ _ => true
  | .setu _ => true
  | .sets _ => true
  | .setf _ => true
  | .setf2 _ => true
  | .abs _ => true
  | .nabs _ => true
  | .tag _ => true
  | .itag _ => true
  | .fldu _ => true
  | .flds _ => true
  | .fldf _ => true
  | .fldf2 _ => true
  | .fst _ => true
  | .cvtu _ => true
  | .cvts _ => true
  | .cvtf _ => true
  | .cvtf2 _ => true
  | .functUnused08 _ => true
  | .functUnused09 _ => true
  | .functUnused0A _ => true
  | .functUnused0B _ => true
  | .functUnused12 _ => true
  | .functUnused13 _ => true
  | .functUnused14 _ => true
  | .functUnused15 _ => true
  | .functUnused16 _ => true
  | .functUnused17 _ => true
  | .functUnused18 _ => true
  | .functUnused19 _ => true
  | .functUnused1A _ => true
  | .functUnused1B _ => true
  | .undefinedBit0 w => undefinedHalf w

end Sys2Proof
end

