-- ==== Sys2Proof/Decode.lean ====
section
/-! DEFINITION. The decoder, total on any bytes, and the encoder, both written from the op-code map of 30_encoding.md
(R72, R76, R80, R82, R84, R88, R90, R92, R97).  A half-word is stored low byte first (log 1). -/

namespace Sys2Proof

/-- The two bytes of a half-word in the order of the memory list, bits 7:0 first (log 1). -/
def bytesOfWord (w : Word) : List Byte := [w.extractLsb' 0 8, w.extractLsb' 8 8]

/-- The half-word whose bits 7:0 are `lo` and whose bits 15:8 are `hi`. -/
def wordOfBytes (lo hi : Byte) : Word := hi ++ lo

/-- The op-code, bits 5:0 (R80). -/
def opOf (w : Word) : BitVec 6 := w.extractLsb' 0 6

/-- The selector D, bits 10:6 (R73). -/
def dOf (w : Word) : Sel := w.extractLsb' 6 5

/-- Bits 15:11: S, n, the function code or the escape (R73 to R75). -/
def fOf (w : Word) : BitVec 5 := w.extractLsb' 11 5

/-- The eleven register-form op-codes, whose bits 15:11 are always S (R76). -/
def registerForm (op : BitVec 6) : Bool :=
  op == 0x05#6 || op == 0x0D#6 || op == 0x15#6 || op == 0x1D#6 || op == 0x25#6 || op == 0x2D#6 ||
  op == 0x35#6 || op == 0x3D#6 || op == 0x19#6 || op == 0x13#6 || op == 0x1B#6

/-- Does a half-word N follow this first half-word (R97)? -/
def isLong (w : Word) : Bool := w.getLsbD 0 && !registerForm (opOf w) && fOf w == escape

/-- A first half-word with bit 0 = 0: one of the four 8-bit instructions, or undefined (R88, R90, R92). -/
def decodeEightBit (w : Word) : Instr :=
  if w = 0x0000#16 then .trap
  else if w = 0x0040#16 then .bkpt
  else if w = 0x0080#16 then .algnw
  else if w = 0x00C0#16 then .algnc
  else .undefinedBit0 w

/-- Op-code 0x0B: bits 15:11 are the function code, and the escape is INSRT (R84). -/
def decodeFunct (f d : BitVec 5) (N : Word) : Instr :=
  match f with
  | 0x00#5 => .setu d
  | 0x01#5 => .sets d
  | 0x02#5 => .setf d
  | 0x03#5 => .setf2 d
  | 0x04#5 => .abs d
  | 0x05#5 => .nabs d
  | 0x06#5 => .tag d
  | 0x07#5 => .itag d
  | 0x08#5 => .functUnused08 d
  | 0x09#5 => .functUnused09 d
  | 0x0A#5 => .functUnused0A d
  | 0x0B#5 => .functUnused0B d
  | 0x0C#5 => .fldu d
  | 0x0D#5 => .flds d
  | 0x0E#5 => .fldf d
  | 0x0F#5 => .fldf2 d
  | 0x10#5 => .insrt d N
  | 0x11#5 => .fst d
  | 0x12#5 => .functUnused12 d
  | 0x13#5 => .functUnused13 d
  | 0x14#5 => .functUnused14 d
  | 0x15#5 => .functUnused15 d
  | 0x16#5 => .functUnused16 d
  | 0x17#5 => .functUnused17 d
  | 0x18#5 => .functUnused18 d
  | 0x19#5 => .functUnused19 d
  | 0x1A#5 => .functUnused1A d
  | 0x1B#5 => .functUnused1B d
  | 0x1C#5 => .cvtu d
  | 0x1D#5 => .cvts d
  | 0x1E#5 => .cvtf d
  | _ => .cvtf2 d

/-- The instruction whose first half-word is `w`; `N` is the half-word after it, which only a long form reads.
Every one of the 65536 first half-words selects one instruction (R72, R80). -/
def decodeHalfwords (w N : Word) : Instr :=
  let d := dOf w
  let f := fOf w
  let long := f == escape
  match opOf w with
  | 0x01#6 => if long then .ldt d N else .inPort d f
  | 0x03#6 => if long then .extrct d N else .shft d f
  | 0x05#6 => .add d f
  | 0x07#6 => if long then .addiLong d N else .addiShort d f
  | 0x09#6 => if long then .stt d N else .outPort d f
  | 0x0B#6 => decodeFunct f d N
  | 0x0D#6 => .sub d f
  | 0x0F#6 => if long then .subiLong d N else .subiShort d f
  | 0x11#6 => if long then .bsrLong d N else .bsrShort d f
  | 0x13#6 => .ld d f
  | 0x15#6 => .mul d f
  | 0x17#6 => if long then .muliLong d N else .muliShort d f
  | 0x19#6 => .mov d f
  | 0x1B#6 => .st d f
  | 0x1D#6 => .div d f
  | 0x1F#6 => if long then .diviLong d N else .diviShort d f
  | 0x21#6 => if long then .brzLong d N else .brzShort d f
  | 0x23#6 => if long then .ldiuLong d N else .ldiuShort d f
  | 0x25#6 => .and d f
  | 0x27#6 => if long then .andiLong d N else .andiShort d f
  | 0x29#6 => if long then .brnzLong d N else .brnzShort d f
  | 0x2B#6 => if long then .ldisLong d N else .ldisShort d f
  | 0x2D#6 => .or d f
  | 0x2F#6 => if long then .oriLong d N else .oriShort d f
  | 0x31#6 => if long then .brpLong d N else .brpShort d f
  | 0x33#6 => if long then .ldifLong d N else .ldifShort d f
  | 0x35#6 => .xor d f
  | 0x37#6 => if long then .xoriLong d N else .xoriShort d f
  | 0x39#6 => if long then .brmLong d N else .brmShort d f
  | 0x3B#6 => if long then .ldif2Long d N else .ldif2Short d f
  | 0x3D#6 => .cmp d f
  | 0x3F#6 => if long then .cmpiLong d N else .cmpiShort d f
  | _ => decodeEightBit w

/-- Why bytes are no instruction. -/
inductive DecodeError where
  /-- fewer than the two bytes of a first half-word -/
  | noFirstHalfword
  /-- the first half-word is a long form and the two bytes of N are missing -/
  | noSecondHalfword
deriving DecidableEq, Repr

/-- The instruction at the front of a list of bytes (R97: the first half-word alone tells the length). -/
def decode : List Byte → Except DecodeError Instr
  | b0 :: b1 :: rest =>
    if isLong (wordOfBytes b0 b1) then
      match rest with
      | b2 :: b3 :: _ => .ok (decodeHalfwords (wordOfBytes b0 b1) (wordOfBytes b2 b3))
      | _ => .error .noSecondHalfword
    else .ok (decodeHalfwords (wordOfBytes b0 b1) 0#16)
  | _ => .error .noFirstHalfword

/-- The instruction the decoder reads from the bits `w` of a row of spec/opcode_table.json, every bit above `nbits`
zero: bit 0 is the least significant bit of the first half-word, the second half-word is bits 31:16. -/
def decodeTableWord (nbits w : Nat) : Option Instr :=
  let v := w % 2 ^ nbits
  match decode (bytesOfWord (BitVec.ofNat 16 v) ++ bytesOfWord (BitVec.ofNat 16 (v / 65536))) with
  | .ok i => some i
  | .error _ => none

/-! The encoder: `w = (f << 11) | (d << 6) | op6` (R80), with N after it in a long form (R75). -/

/-- A first half-word with the fields `f`, `d` and the op-code `op` (R80). -/
def assemble (f d : BitVec 5) (op : BitVec 6) : Word := f ++ d ++ op

/-- The half-words of an instruction, the first at the lowest address (R73 to R75, R80, R84, R88). -/
def encode : Instr → List Word
  | .trap => [0x0000#16]
  | .bkpt => [0x0040#16]
  | .algnw => [0x0080#16]
  | .algnc => [0x00C0#16]
  | .add d s => [assemble s d 0x05#6]
  | .sub d s => [assemble s d 0x0D#6]
  | .mul d s => [assemble s d 0x15#6]
  | .div d s => [assemble s d 0x1D#6]
  | .and d s => [assemble s d 0x25#6]
  | .or d s => [assemble s d 0x2D#6]
  | .xor d s => [assemble s d 0x35#6]
  | .cmp d s => [assemble s d 0x3D#6]
  | .ld d s => [assemble s d 0x13#6]
  | .st d s => [assemble s d 0x1B#6]
  | .mov d s => [assemble s d 0x19#6]
  | .inPort d n => [assemble n d 0x01#6]
  | .ldt d N => [assemble escape d 0x01#6, N]
  | .outPort d n => [assemble n d 0x09#6]
  | .stt d N => [assemble escape d 0x09#6, N]
  | .bsrShort d n => [assemble n d 0x11#6]
  | .bsrLong d N => [assemble escape d 0x11#6, N]
  | .brzShort d n => [assemble n d 0x21#6]
  | .brzLong d N => [assemble escape d 0x21#6, N]
  | .brnzShort d n => [assemble n d 0x29#6]
  | .brnzLong d N => [assemble escape d 0x29#6, N]
  | .brpShort d n => [assemble n d 0x31#6]
  | .brpLong d N => [assemble escape d 0x31#6, N]
  | .brmShort d n => [assemble n d 0x39#6]
  | .brmLong d N => [assemble escape d 0x39#6, N]
  | .shft d n => [assemble n d 0x03#6]
  | .extrct d N => [assemble escape d 0x03#6, N]
  | .insrt d N => [assemble escape d 0x0B#6, N]
  | .ldiuShort d n => [assemble n d 0x23#6]
  | .ldiuLong d N => [assemble escape d 0x23#6, N]
  | .ldisShort d n => [assemble n d 0x2B#6]
  | .ldisLong d N => [assemble escape d 0x2B#6, N]
  | .ldifShort d n => [assemble n d 0x33#6]
  | .ldifLong d N => [assemble escape d 0x33#6, N]
  | .ldif2Short d n => [assemble n d 0x3B#6]
  | .ldif2Long d N => [assemble escape d 0x3B#6, N]
  | .addiShort d n => [assemble n d 0x07#6]
  | .addiLong d N => [assemble escape d 0x07#6, N]
  | .subiShort d n => [assemble n d 0x0F#6]
  | .subiLong d N => [assemble escape d 0x0F#6, N]
  | .muliShort d n => [assemble n d 0x17#6]
  | .muliLong d N => [assemble escape d 0x17#6, N]
  | .diviShort d n => [assemble n d 0x1F#6]
  | .diviLong d N => [assemble escape d 0x1F#6, N]
  | .andiShort d n => [assemble n d 0x27#6]
  | .andiLong d N => [assemble escape d 0x27#6, N]
  | .oriShort d n => [assemble n d 0x2F#6]
  | .oriLong d N => [assemble escape d 0x2F#6, N]
  | .xoriShort d n => [assemble n d 0x37#6]
  | .xoriLong d N => [assemble escape d 0x37#6, N]
  | .cmpiShort d n => [assemble n d 0x3F#6]
  | .cmpiLong d N => [assemble escape d 0x3F#6, N]
  | .setu d => [assemble 0x00#5 d 0x0B#6]
  | .sets d => [assemble 0x01#5 d 0x0B#6]
  | .setf d => [assemble 0x02#5 d 0x0B#6]
  | .setf2 d => [assemble 0x03#5 d 0x0B#6]
  | .abs d => [assemble 0x04#5 d 0x0B#6]
  | .nabs d => [assemble 0x05#5 d 0x0B#6]
  | .tag d => [assemble 0x06#5 d 0x0B#6]
  | .itag d => [assemble 0x07#5 d 0x0B#6]
  | .fldu d => [assemble 0x0C#5 d 0x0B#6]
  | .flds d => [assemble 0x0D#5 d 0x0B#6]
  | .fldf d => [assemble 0x0E#5 d 0x0B#6]
  | .fldf2 d => [assemble 0x0F#5 d 0x0B#6]
  | .fst d => [assemble 0x11#5 d 0x0B#6]
  | .cvtu d => [assemble 0x1C#5 d 0x0B#6]
  | .cvts d => [assemble 0x1D#5 d 0x0B#6]
  | .cvtf d => [assemble 0x1E#5 d 0x0B#6]
  | .cvtf2 d => [assemble 0x1F#5 d 0x0B#6]
  | .functUnused08 d => [assemble 0x08#5 d 0x0B#6]
  | .functUnused09 d => [assemble 0x09#5 d 0x0B#6]
  | .functUnused0A d => [assemble 0x0A#5 d 0x0B#6]
  | .functUnused0B d => [assemble 0x0B#5 d 0x0B#6]
  | .functUnused12 d => [assemble 0x12#5 d 0x0B#6]
  | .functUnused13 d => [assemble 0x13#5 d 0x0B#6]
  | .functUnused14 d => [assemble 0x14#5 d 0x0B#6]
  | .functUnused15 d => [assemble 0x15#5 d 0x0B#6]
  | .functUnused16 d => [assemble 0x16#5 d 0x0B#6]
  | .functUnused17 d => [assemble 0x17#5 d 0x0B#6]
  | .functUnused18 d => [assemble 0x18#5 d 0x0B#6]
  | .functUnused19 d => [assemble 0x19#5 d 0x0B#6]
  | .functUnused1A d => [assemble 0x1A#5 d 0x0B#6]
  | .functUnused1B d => [assemble 0x1B#5 d 0x0B#6]
  | .undefinedBit0 w => [w]

/-- The bytes of an instruction as the memory list holds them. -/
def encodeBytes (i : Instr) : List Byte := (encode i).flatMap bytesOfWord

/-- The length of an instruction in half-words (R97). -/
def Instr.len : Instr → Nat
  | .trap => 1
  | .bkpt => 1
  | .algnw => 1
  | .algnc => 1
  | .add _ _ => 1
  | .sub _ _ => 1
  | .mul _ _ => 1
  | .div _ _ => 1
  | .and _ _ => 1
  | .or _ _ => 1
  | .xor _ _ => 1
  | .cmp _ _ => 1
  | .ld _ _ => 1
  | .st _ _ => 1
  | .mov _ _ => 1
  | .inPort _ _ => 1
  | .ldt _ _ => 2
  | .outPort _ _ => 1
  | .stt _ _ => 2
  | .bsrShort _ _ => 1
  | .bsrLong _ _ => 2
  | .brzShort _ _ => 1
  | .brzLong _ _ => 2
  | .brnzShort _ _ => 1
  | .brnzLong _ _ => 2
  | .brpShort _ _ => 1
  | .brpLong _ _ => 2
  | .brmShort _ _ => 1
  | .brmLong _ _ => 2
  | .shft _ _ => 1
  | .extrct _ _ => 2
  | .insrt _ _ => 2
  | .ldiuShort _ _ => 1
  | .ldiuLong _ _ => 2
  | .ldisShort _ _ => 1
  | .ldisLong _ _ => 2
  | .ldifShort _ _ => 1
  | .ldifLong _ _ => 2
  | .ldif2Short _ _ => 1
  | .ldif2Long _ _ => 2
  | .addiShort _ _ => 1
  | .addiLong _ _ => 2
  | .subiShort _ _ => 1
  | .subiLong _ _ => 2
  | .muliShort _ _ => 1
  | .muliLong _ _ => 2
  | .diviShort _ _ => 1
  | .diviLong _ _ => 2
  | .andiShort _ _ => 1
  | .andiLong _ _ => 2
  | .oriShort _ _ => 1
  | .oriLong _ _ => 2
  | .xoriShort _ _ => 1
  | .xoriLong _ _ => 2
  | .cmpiShort _ _ => 1
  | .cmpiLong _ _ => 2
  | .setu _ => 1
  | .sets _ => 1
  | .setf _ => 1
  | .setf2 _ => 1
  | .abs _ => 1
  | .nabs _ => 1
  | .tag _ => 1
  | .itag _ => 1
  | .fldu _ => 1
  | .flds _ => 1
  | .fldf _ => 1
  | .fldf2 _ => 1
  | .fst _ => 1
  | .cvtu _ => 1
  | .cvts _ => 1
  | .cvtf _ => 1
  | .cvtf2 _ => 1
  | .functUnused08 _ => 1
  | .functUnused09 _ => 1
  | .functUnused0A _ => 1
  | .functUnused0B _ => 1
  | .functUnused12 _ => 1
  | .functUnused13 _ => 1
  | .functUnused14 _ => 1
  | .functUnused15 _ => 1
  | .functUnused16 _ => 1
  | .functUnused17 _ => 1
  | .functUnused18 _ => 1
  | .functUnused19 _ => 1
  | .functUnused1A _ => 1
  | .functUnused1B _ => 1
  | .undefinedBit0 _ => 1

end Sys2Proof
end

