-- ==== Sys2Proof/Machine/Fetch.lean ====
section
/-! DEFINITION. Fetching an instruction at the program counter (30_encoding.md R72, R75, R97). -/

namespace Sys2Proof.Machine

/-- The instruction at the program counter: the first half-word, and N from the next address, modulo 65536, when the
first half-word is a long form (R72, D34).  Nothing is raised before N is fetched. -/
def State.fetch (s : State) : Except Fault Instr :=
  match s.instRead s.pc with
  | .error e => .error e
  | .ok w =>
    if isLong w then
      match s.instRead (s.pc + 1#16) with
      | .error e => .error e
      | .ok N => .ok (decodeHalfwords w N)
    else .ok (decodeHalfwords w 0#16)

/-- `s` with the half-words `w` and `N` stored where the instruction at the program counter is fetched. -/
def State.withHalfwords (s : State) (w N : Word) : State :=
  { s with mem := Memory.writeHalf (Memory.writeHalf s.mem s.pc w Params.codeBase) (s.pc + 1#16) N Params.codeBase }

end Sys2Proof.Machine
end

