-- ==== Sys2Proof/Machine/Step.lean ====
section
/-! DEFINITION. One step of the core (30_encoding.md R72), and the placing of an instruction where step fetches. -/

namespace Sys2Proof.Machine

/-- One step: the instruction at the program counter is fetched and executed.  The meaning sets the PC, or takes the
trap; every effect is complete before the next fetch (R72, 70_reset_and_hazards.md R299). -/
def step (s : State) : Host.Outcome State Fault Refusal :=
  match s.fetch with
  | .error e => .fault e
  | .ok i => exec i s

/-- `s` with the instruction whose bits are `w` (bit 0 the least significant bit of its first half-word, every bit
above `nbits` zero) stored at the program counter: two half-words, the longest instruction (log 21). -/
def State.withFetchWord (s : State) (nbits w : Nat) : State :=
  s.withHalfwords (BitVec.ofNat 16 (w % 2 ^ nbits)) (BitVec.ofNat 16 (w % 2 ^ nbits / 65536))

end Sys2Proof.Machine
end

