-- ==== Sys2Proof/Safety.lean ====
section
/-! DEFINITION. The terms in which runs and claims are spoken of: what an instruction leaves (its result and its
frame), which instructions may do what, and the end of a run. -/

namespace Sys2Proof.Machine

/-! ## Runs -/

/-- A safe step: the machine goes on. -/
def Safety.goesOn (s : State) : Bool :=
  match step s with
  | .next _ => true
  | .fault _ => false
  | .refused _ => false

/-- A run of at most `k` steps that ends when the PC equals `stop` at an instruction boundary; the instruction at
`stop` is not executed (70_reset_and_hazards.md R298, D36). -/
def Safety.runUntil (stop : Word) : Nat → State → Result
  | 0, s => .next s
  | k + 1, s =>
    if s.pc = stop then .next s
    else
      match step s with
      | .next t => Safety.runUntil stop k t
      | .fault e => .fault e
      | .refused e => .refused e

/-! ## What an instruction leaves -/

/-- exec answers a next state, and `P` holds of it. -/
def Safety.Completes (i : Instr) (s : State) (P : State → Prop) : Prop := ∃ t, exec i s = .next t ∧ P t

/-- Apart from the registers and the PC, `t` is `s`: the save register, every byte of memory, what the environment
holds and what has crossed the ports (`freeCount`, which is no state of the machine, is not spoken of). -/
structure Safety.RestSame (s t : State) : Prop where
  save : t.save = s.save
  mem : ∀ b, Memory.read t.mem b = Memory.read s.mem b
  inputs : t.inputs = s.inputs
  events : t.events = s.events

/-- Every register, data and tags, is as before. -/
def Safety.RegsSame (s t : State) : Prop := ∀ j, j ≠ pcSel → t.reg j = s.reg j

/-- `t` is `s` after an instruction of `len` half-words that writes `v` to selector `d`, and, where `res` is given,
that by-product to the residue register unless `d` is the residue register (10_state.md R26, R30).  Every other
register, the save register, every byte of memory and the ports are as before. -/
structure Safety.Wrote (s t : State) (len : Nat) (d : Sel) (v : RegVal) (res : Option RegVal) : Prop where
  regs : ∀ j, j ≠ pcSel → t.reg j = if j = d then v else if j = resSel then res.getD (s.reg resSel) else s.reg j
  pc : t.pc = if d = pcSel then v.data else s.pc + BitVec.ofNat 16 len
  rest : Safety.RestSame s t

/-- `t` is `s` with control at `target` and nothing else changed. -/
structure Safety.Jumped (s t : State) (target : Word) : Prop where
  pc : t.pc = target
  regs : Safety.RegsSame s t
  rest : Safety.RestSame s t

/-- `t` is `s` after the entry of a trap at `location`: the save register holds the address of the instruction, the
PC the location, and nothing else has changed (60_exceptions.md R266). -/
structure Safety.Trapped (s t : State) (location : Word) : Prop where
  save : t.save = s.pc
  pc : t.pc = location
  regs : Safety.RegsSame s t
  mem : ∀ b, Memory.read t.mem b = Memory.read s.mem b
  inputs : t.inputs = s.inputs
  events : t.events = s.events

/-- `t` is `s` after an instruction of `len` half-words that writes the half-word `v` to the address `a` and nothing
else: every byte of memory but the two of that half-word, every register, the save register and the ports are as
before. -/
structure Safety.Stored (s t : State) (len : Nat) (a v : Word) : Prop where
  stored : Memory.readHalf t.mem a = some v
  mem : ∀ b, b ≠ byteAddr a → b ≠ byteAddr a + 1 → Memory.read t.mem b = Memory.read s.mem b
  regs : Safety.RegsSame s t
  pc : t.pc = s.pc + BitVec.ofNat 16 len
  save : t.save = s.save
  inputs : t.inputs = s.inputs
  events : t.events = s.events

/-- The Illegal trap when D is the PC, else `P` (10_state.md R35). -/
def Safety.UnlessPc (d : Sel) (s t : State) (P : Prop) : Prop :=
  if d = pcSel then Safety.Trapped s t 0x0060#16 else P

/-! ## Forms -/

/-- `reg` is the register form (format RR) of the op-code `op` (30_encoding.md R73). -/
def Safety.EncodedRR (op : BitVec 6) (reg : Sel → Sel → Instr) : Prop :=
  ∀ (d s : Sel) (N : Word), decodeHalfwords (s ++ d ++ op) N = reg d s

/-- `long` is the long form (format RI16) of the op-code `op` (30_encoding.md R75). -/
def Safety.EncodedLong (op : BitVec 6) (long : Sel → Word → Instr) : Prop :=
  ∀ (d : Sel) (N : Word), decodeHalfwords (0b10000#5 ++ d ++ op) N = long d N ∧
    isLong (0b10000#5 ++ d ++ op) = true

/-- `short` is the short form (format RI5) of the op-code `op` (30_encoding.md R74). -/
def Safety.EncodedShort (op : BitVec 6) (short : Sel → BitVec 5 → Instr) : Prop :=
  ∀ (d : Sel) (n : BitVec 5) (N : Word), n ≠ 0b10000#5 → decodeHalfwords (n ++ d ++ op) N = short d n ∧
    isLong (n ++ d ++ op) = false

/-- `fn` is the FUNCT function of the code `code` (30_encoding.md R84). -/
def Safety.EncodedFunct (code : BitVec 5) (fn : Sel → Instr) : Prop :=
  ∀ (d : Sel) (N : Word), decodeHalfwords (code ++ d ++ 0b001011#6) N = fn d

/-- `i` is one of the three forms of an ALU instruction with the destination D = `d`: the register form with an S of
D's type, the short form or the long form; `len` is its length and `y` its second operand, the data of S or the
immediate I (44_alu_imm.md R160). -/
def Safety.AluForm (reg : Sel → Sel → Instr) (short : Sel → BitVec 5 → Instr) (long : Sel → Word → Instr)
    (s : State) (d : Sel) (i : Instr) (len : Nat) (y : Word) : Prop :=
  (∃ r : Sel, i = reg d r ∧ (s.reg r).ty = (s.reg d).ty ∧ len = 1 ∧ y = (s.reg r).data) ∨
  (∃ n : BitVec 5, i = short d n ∧ len = 1 ∧ y = n.signExtend 16) ∨
  (∃ N : Word, i = long d N ∧ len = 2 ∧ y = N)

/-- The D field of a 16-bit instruction.  The 8-bit instructions and the undefined encodings, the unused function
codes among them, have none (30_encoding.md R88, R92). -/
def Safety.dField : Instr → Option Sel
  | .trap => none
  | .bkpt => none
  | .algnw => none
  | .algnc => none
  | .add d _ => some d
  | .sub d _ => some d
  | .mul d _ => some d
  | .div d _ => some d
  | .and d _ => some d
  | .or d _ => some d
  | .xor d _ => some d
  | .cmp d _ => some d
  | .ld d _ => some d
  | .st d _ => some d
  | .mov d _ => some d
  | .inPort d _ => some d
  | .ldt d _ => some d
  | .outPort d _ => some d
  | .stt d _ => some d
  | .bsrShort d _ => some d
  | .bsrLong d _ => some d
  | .brzShort d _ => some d
  | .brzLong d _ => some d
  | .brnzShort d _ => some d
  | .brnzLong d _ => some d
  | .brpShort d _ => some d
  | .brpLong d _ => some d
  | .brmShort d _ => some d
  | .brmLong d _ => some d
  | .shft d _ => some d
  | .extrct d _ => some d
  | .insrt d _ => some d
  | .ldiuShort d _ => some d
  | .ldiuLong d _ => some d
  | .ldisShort d _ => some d
  | .ldisLong d _ => some d
  | .ldifShort d _ => some d
  | .ldifLong d _ => some d
  | .ldif2Short d _ => some d
  | .ldif2Long d _ => some d
  | .addiShort d _ => some d
  | .addiLong d _ => some d
  | .subiShort d _ => some d
  | .subiLong d _ => some d
  | .muliShort d _ => some d
  | .muliLong d _ => some d
  | .diviShort d _ => some d
  | .diviLong d _ => some d
  | .andiShort d _ => some d
  | .andiLong d _ => some d
  | .oriShort d _ => some d
  | .oriLong d _ => some d
  | .xoriShort d _ => some d
  | .xoriLong d _ => some d
  | .cmpiShort d _ => some d
  | .cmpiLong d _ => some d
  | .setu d => some d
  | .sets d => some d
  | .setf d => some d
  | .setf2 d => some d
  | .abs d => some d
  | .nabs d => some d
  | .tag d => some d
  | .itag d => some d
  | .fldu d => some d
  | .flds d => some d
  | .fldf d => some d
  | .fldf2 d => some d
  | .fst d => some d
  | .cvtu d => some d
  | .cvts d => some d
  | .cvtf d => some d
  | .cvtf2 d => some d
  | .functUnused08 _ => none
  | .functUnused09 _ => none
  | .functUnused0A _ => none
  | .functUnused0B _ => none
  | .functUnused12 _ => none
  | .functUnused13 _ => none
  | .functUnused14 _ => none
  | .functUnused15 _ => none
  | .functUnused16 _ => none
  | .functUnused17 _ => none
  | .functUnused18 _ => none
  | .functUnused19 _ => none
  | .functUnused1A _ => none
  | .functUnused1B _ => none
  | .undefinedBit0 _ => none

/-- May the instruction have D = 31 (10_state.md R30)? -/
def Safety.mayWritePc : Instr → Bool
  | .trap => false
  | .bkpt => false
  | .algnw => false
  | .algnc => false
  | .add _ _ => true
  | .sub _ _ => true
  | .mul _ _ => false
  | .div _ _ => false
  | .and _ _ => false
  | .or _ _ => false
  | .xor _ _ => false
  | .cmp _ _ => false
  | .ld _ _ => true
  | .st _ _ => false
  | .mov _ _ => true
  | .inPort _ _ => true
  | .ldt _ _ => false
  | .outPort _ _ => false
  | .stt _ _ => false
  | .bsrShort _ _ => false
  | .bsrLong _ _ => false
  | .brzShort _ _ => false
  | .brzLong _ _ => false
  | .brnzShort _ _ => false
  | .brnzLong _ _ => false
  | .brpShort _ _ => false
  | .brpLong _ _ => false
  | .brmShort _ _ => false
  | .brmLong _ _ => false
  | .shft _ _ => false
  | .extrct _ _ => false
  | .insrt _ _ => false
  | .ldiuShort _ _ => true
  | .ldiuLong _ _ => true
  | .ldisShort _ _ => false
  | .ldisLong _ _ => false
  | .ldifShort _ _ => false
  | .ldifLong _ _ => false
  | .ldif2Short _ _ => false
  | .ldif2Long _ _ => false
  | .addiShort _ _ => true
  | .addiLong _ _ => true
  | .subiShort _ _ => true
  | .subiLong _ _ => true
  | .muliShort _ _ => false
  | .muliLong _ _ => false
  | .diviShort _ _ => false
  | .diviLong _ _ => false
  | .andiShort _ _ => false
  | .andiLong _ _ => false
  | .oriShort _ _ => false
  | .oriLong _ _ => false
  | .xoriShort _ _ => false
  | .xoriLong _ _ => false
  | .cmpiShort _ _ => false
  | .cmpiLong _ _ => false
  | .setu _ => false
  | .sets _ => false
  | .setf _ => false
  | .setf2 _ => false
  | .abs _ => false
  | .nabs _ => false
  | .tag _ => false
  | .itag _ => false
  | .fldu _ => false
  | .flds _ => false
  | .fldf _ => false
  | .fldf2 _ => false
  | .fst _ => false
  | .cvtu _ => false
  | .cvts _ => false
  | .cvtf _ => false
  | .cvtf2 _ => false
  | .functUnused08 _ => false
  | .functUnused09 _ => false
  | .functUnused0A _ => false
  | .functUnused0B _ => false
  | .functUnused12 _ => false
  | .functUnused13 _ => false
  | .functUnused14 _ => false
  | .functUnused15 _ => false
  | .functUnused16 _ => false
  | .functUnused17 _ => false
  | .functUnused18 _ => false
  | .functUnused19 _ => false
  | .functUnused1A _ => false
  | .functUnused1B _ => false
  | .undefinedBit0 _ => false

/-- Is the instruction in the table of 10_state.md R34, which lists those that write the residue register other than
through D = 28? -/
def Safety.writesResidue : Instr → Bool
  | .trap => false
  | .bkpt => false
  | .algnw => false
  | .algnc => false
  | .add _ _ => true
  | .sub _ _ => true
  | .mul _ _ => true
  | .div _ _ => true
  | .and _ _ => false
  | .or _ _ => false
  | .xor _ _ => false
  | .cmp _ _ => true
  | .ld _ _ => false
  | .st _ _ => false
  | .mov _ _ => false
  | .inPort _ _ => false
  | .ldt _ _ => false
  | .outPort _ _ => false
  | .stt _ _ => false
  | .bsrShort _ _ => false
  | .bsrLong _ _ => false
  | .brzShort _ _ => false
  | .brzLong _ _ => false
  | .brnzShort _ _ => false
  | .brnzLong _ _ => false
  | .brpShort _ _ => false
  | .brpLong _ _ => false
  | .brmShort _ _ => false
  | .brmLong _ _ => false
  | .shft _ _ => true
  | .extrct _ _ => true
  | .insrt _ _ => false
  | .ldiuShort _ _ => false
  | .ldiuLong _ _ => false
  | .ldisShort _ _ => false
  | .ldisLong _ _ => false
  | .ldifShort _ _ => false
  | .ldifLong _ _ => false
  | .ldif2Short _ _ => false
  | .ldif2Long _ _ => false
  | .addiShort _ _ => true
  | .addiLong _ _ => true
  | .subiShort _ _ => true
  | .subiLong _ _ => true
  | .muliShort _ _ => true
  | .muliLong _ _ => true
  | .diviShort _ _ => true
  | .diviLong _ _ => true
  | .andiShort _ _ => false
  | .andiLong _ _ => false
  | .oriShort _ _ => false
  | .oriLong _ _ => false
  | .xoriShort _ _ => false
  | .xoriLong _ _ => false
  | .cmpiShort _ _ => true
  | .cmpiLong _ _ => true
  | .setu _ => false
  | .sets _ => false
  | .setf _ => false
  | .setf2 _ => false
  | .abs _ => false
  | .nabs _ => false
  | .tag _ => true
  | .itag _ => false
  | .fldu _ => true
  | .flds _ => true
  | .fldf _ => true
  | .fldf2 _ => true
  | .fst _ => false
  | .cvtu _ => true
  | .cvts _ => true
  | .cvtf _ => true
  | .cvtf2 _ => true
  | .functUnused08 _ => false
  | .functUnused09 _ => false
  | .functUnused0A _ => false
  | .functUnused0B _ => false
  | .functUnused12 _ => false
  | .functUnused13 _ => false
  | .functUnused14 _ => false
  | .functUnused15 _ => false
  | .functUnused16 _ => false
  | .functUnused17 _ => false
  | .functUnused18 _ => false
  | .functUnused19 _ => false
  | .functUnused1A _ => false
  | .functUnused1B _ => false
  | .undefinedBit0 _ => false

/-- Does the instruction store to memory (20_memory.md R55)? -/
def Safety.stores : Instr → Bool
  | .trap => false
  | .bkpt => false
  | .algnw => false
  | .algnc => false
  | .add _ _ => false
  | .sub _ _ => false
  | .mul _ _ => false
  | .div _ _ => false
  | .and _ _ => false
  | .or _ _ => false
  | .xor _ _ => false
  | .cmp _ _ => false
  | .ld _ _ => false
  | .st _ _ => true
  | .mov _ _ => false
  | .inPort _ _ => false
  | .ldt _ _ => false
  | .outPort _ _ => false
  | .stt _ _ => true
  | .bsrShort _ _ => false
  | .bsrLong _ _ => false
  | .brzShort _ _ => false
  | .brzLong _ _ => false
  | .brnzShort _ _ => false
  | .brnzLong _ _ => false
  | .brpShort _ _ => false
  | .brpLong _ _ => false
  | .brmShort _ _ => false
  | .brmLong _ _ => false
  | .shft _ _ => false
  | .extrct _ _ => false
  | .insrt _ _ => false
  | .ldiuShort _ _ => false
  | .ldiuLong _ _ => false
  | .ldisShort _ _ => false
  | .ldisLong _ _ => false
  | .ldifShort _ _ => false
  | .ldifLong _ _ => false
  | .ldif2Short _ _ => false
  | .ldif2Long _ _ => false
  | .addiShort _ _ => false
  | .addiLong _ _ => false
  | .subiShort _ _ => false
  | .subiLong _ _ => false
  | .muliShort _ _ => false
  | .muliLong _ _ => false
  | .diviShort _ _ => false
  | .diviLong _ _ => false
  | .andiShort _ _ => false
  | .andiLong _ _ => false
  | .oriShort _ _ => false
  | .oriLong _ _ => false
  | .xoriShort _ _ => false
  | .xoriLong _ _ => false
  | .cmpiShort _ _ => false
  | .cmpiLong _ _ => false
  | .setu _ => false
  | .sets _ => false
  | .setf _ => false
  | .setf2 _ => false
  | .abs _ => false
  | .nabs _ => false
  | .tag _ => false
  | .itag _ => false
  | .fldu _ => false
  | .flds _ => false
  | .fldf _ => false
  | .fldf2 _ => false
  | .fst _ => true
  | .cvtu _ => false
  | .cvts _ => false
  | .cvtf _ => false
  | .cvtf2 _ => false
  | .functUnused08 _ => false
  | .functUnused09 _ => false
  | .functUnused0A _ => false
  | .functUnused0B _ => false
  | .functUnused12 _ => false
  | .functUnused13 _ => false
  | .functUnused14 _ => false
  | .functUnused15 _ => false
  | .functUnused16 _ => false
  | .functUnused17 _ => false
  | .functUnused18 _ => false
  | .functUnused19 _ => false
  | .functUnused1A _ => false
  | .functUnused1B _ => false
  | .undefinedBit0 _ => false

end Sys2Proof.Machine
end

