-- ==== Sys2Proof/Certificates/Slice0/Obligations.lean ====
section
/-! DEFINITION. The statements for the provers, each about every state and every operand that meets its hypotheses.
`Completes i s P` says that exec answers a next state of which P holds; `Wrote`, `Jumped`, `Stored` and `Trapped`
give the result and the whole frame (Safety.lean). -/

open Sys2Proof Sys2Proof.Machine Sys2Proof.Machine.Safety

/-! ## Traps, alignment, reset -/

/-- R100, R101: TRAP and BKPT, with their half-words. -/
def Obligations.TrapAndBreakpointEnterTheirLocations : Prop :=
  (∀ N : Word, decodeHalfwords 0x0000#16 N = .trap ∧ decodeHalfwords 0x0040#16 N = .bkpt) ∧
  isLong 0x0000#16 = false ∧ isLong 0x0040#16 = false ∧
  ∀ s : State, Completes .trap s (fun t => Trapped s t 0x0020#16) ∧ Completes .bkpt s (fun t => Trapped s t 0x0040#16)

/-- R92: every first half-word with bit 0 = 0 that is no 8-bit instruction, and FUNCT with an unused function code,
raise the Undefined-instruction trap; and so does each of the constructors that stand for them. -/
def Obligations.UndefinedEncodingsTrap : Prop :=
  (∀ (s : State) (w N : Word),
    ((w.getLsbD 0 = false ∧ w ∉ [0x0000#16, 0x0040#16, 0x0080#16, 0x00C0#16]) ∨
      (w.extractLsb' 0 6 = 0b001011#6 ∧
        w.extractLsb' 11 5 ∈ [0x08#5, 0x09#5, 0x0A#5, 0x0B#5, 0x12#5, 0x13#5, 0x14#5, 0x15#5, 0x16#5, 0x17#5, 0x18#5,
          0x19#5, 0x1A#5, 0x1B#5])) →
    Completes (decodeHalfwords w N) s (fun t => Trapped s t 0x0080#16)) ∧
  (∀ (s : State) (d : Sel) (w : Word) (i : Instr),
    i ∈ [.functUnused08 d, .functUnused09 d, .functUnused0A d, .functUnused0B d, .functUnused12 d, .functUnused13 d,
      .functUnused14 d, .functUnused15 d, .functUnused16 d, .functUnused17 d, .functUnused18 d, .functUnused19 d,
      .functUnused1A d, .functUnused1B d, .undefinedBit0 w] →
    Completes i s (fun t => Trapped s t 0x0080#16))

/-- R102, for the word of two half-words: ALGNW goes to the smallest even address strictly above its own. -/
def Obligations.AlgnwGoesToNextEvenAddress : Prop :=
  ∀ s : State,
    Completes .algnw s (fun t => Jumped s t (BitVec.ofNat 16 ((s.pc.toNat / 2 + 1) * 2)) ∧
      t.pc = ((s.pc + 1#16) + 1#16) &&& 0xFFFE#16)

/-- R103: ALGNC goes to the smallest multiple of 16 strictly above its own address. -/
def Obligations.AlgncGoesToNextLine : Prop :=
  (∀ N : Word, decodeHalfwords 0x00C0#16 N = .algnc) ∧ isLong 0x00C0#16 = false ∧
  ∀ s : State,
    Completes .algnc s (fun t => Jumped s t (BitVec.ofNat 16 ((s.pc.toNat / 16 + 1) * 16)) ∧
      t.pc = ((s.pc + 1#16) + 15#16) &&& 0xFFF0#16)

/-- R35: every 16-bit instruction with D = 31, but the eight that R30 names, raises the Illegal trap, whatever its
other operands and the state. -/
def Obligations.PcAsDestinationTraps : Prop :=
  ∀ (i : Instr) (s : State), dField i = some pcSel → mayWritePc i = false →
    Completes i s (fun t => Trapped s t 0x0060#16)

/-- R141, R264: ADD, SUB, MUL and DIV on operands whose type tags differ take the Undefined-instruction trap (MUL and
DIV unless D is the PC, where the Illegal trap comes first), whatever the exponent tags. -/
def Obligations.TypesThatDifferTrap : Prop :=
  ∀ (s : State) (d r : Sel), (s.reg d).ty ≠ (s.reg r).ty →
    Completes (.add d r) s (fun t => Trapped s t 0x0080#16) ∧
    Completes (.sub d r) s (fun t => Trapped s t 0x0080#16) ∧
    Completes (.mul d r) s (fun t => UnlessPc d s t (Trapped s t 0x0080#16)) ∧
    Completes (.div d r) s (fun t => UnlessPc d s t (Trapped s t 0x0080#16))

/-- R272: `IN pc, -1` is 0xFFC1, sets the PC to the save register and restores nothing else; after a TRAP it leads
back to the TRAP itself; and `IN r1, -1; ADDI r1, #1; MOV pc, r1` leads to its successor. -/
def Obligations.InToPcReturnsFromTrap : Prop :=
  (∀ N : Word, decodeHalfwords 0xFFC1#16 N = .inPort 31#5 0b11111#5) ∧
  (∀ s : State, exec (.inPort 31#5 0b11111#5) s = .next s.returnFromTrap ∧ Jumped s s.returnFromTrap s.save) ∧
  (∀ s : State, Completes .trap s (fun t =>
    Completes (.inPort 31#5 0b11111#5) t (fun u => u.pc = s.pc ∧ RegsSame s u) ∧
    Completes (.inPort 1#5 0b11111#5) t (fun a => Completes (.addiShort 1#5 1#5) a (fun b =>
      Completes (.mov 31#5 1#5) b (fun c => c.pc = s.pc + 1#16)))))

/-- The PC is 0 in the reset state and after the reset input on a running machine (R290).  That the reset input leaves
every other field is the model's choice (log 22): the spec states PC = 0 and that the save register is not written, and
leaves registers, tags, residue register and memory unspecified (R45, R291). -/
def Obligations.ResetSetsPcToZero : Prop :=
  State.reset.pc = 0x0000#16 ∧
  ∀ s : State, s.resetEvent = { s with pc := 0x0000#16 }

/-- The memory of the reset state has the canonical form. -/
def Obligations.ResetMemoryIsCanonical : Prop := State.reset.mem.wf = true

/-! ## Ports and the absolute load and store -/

/-- R41: IN from port -1 gives the save register, OUT to it writes it; nothing else changes but D and the PC. -/
def Obligations.SavePortReadsAndWritesSave : Prop :=
  ∀ (s : State) (d : Sel),
    Completes (.inPort d 0b11111#5) s (fun t => Wrote s t 1 d ⟨s.save, .u, 0#2⟩ none) ∧
    Completes (.outPort d 0b11111#5) s (fun t => UnlessPc d s t
      (t.save = (s.reg d).data ∧ t.pc = s.pc + 1#16 ∧ RegsSame s t ∧
        (∀ b, Memory.read t.mem b = Memory.read s.mem b) ∧ t.inputs = s.inputs ∧ t.events = s.events))

/-- R39, R40, R110: IN from an external port gives D the value the environment presents next on that port, of type U
(any value where the model's list holds none), and records the read; IN from an internal port other than the save
port gives any value. -/
def Obligations.InGivesThePortsValue : Prop :=
  ∀ (s : State) (d : Sel) (n : BitVec 5),
    (n.msb = false → ∀ (before after : List (BitVec 5 × Word)) (v : Word),
      s.inputs = before ++ (n, v) :: after → (∀ p ∈ before, p.1 ≠ n) →
      Completes (.inPort d n) s (fun t =>
        Wrote { s with inputs := before ++ after, events := .input n v :: s.events } t 1 d ⟨v, .u, 0#2⟩ none)) ∧
    (n.msb = false → (∀ p ∈ s.inputs, p.1 ≠ n) → ∃ v : Word,
      Completes (.inPort d n) s (fun t =>
        Wrote { s with events := .input n v :: s.events } t 1 d ⟨v, .u, 0#2⟩ none)) ∧
    (n.msb = true → n ≠ 0b11111#5 → ∃ v : Word,
      Completes (.inPort d n) s (fun t => Wrote s t 1 d ⟨v, .u, 0#2⟩ none))

/-- R39, R40, R114: OUT to any port but the save port is a recorded event and changes nothing but the PC. -/
def Obligations.OutIsARecordedEvent : Prop :=
  ∀ (s : State) (d : Sel) (n : BitVec 5), n ≠ 0b11111#5 →
    Completes (.outPort d n) s (fun t => UnlessPc d s t
      (Jumped { s with events := .output n (s.reg d).data :: s.events } t (s.pc + 1#16)))

/-- R112: LDT loads the data of D from N and its tags from bits 3:0 of the half-word at N + 1, modulo 65536. -/
def Obligations.LdtLoadsDataAndTags : Prop :=
  EncodedLong 0b000001#6 .ldt ∧
  ∀ (s : State) (d : Sel) (N v w : Word), s.memRead N = .ok v → s.memRead (N + 1#16) = .ok w →
    Completes (.ldt d N) s (fun t => UnlessPc d s t
      (Wrote s t 2 d
        ⟨v, if w.extractLsb' 0 2 = 0#2 then .u else if w.extractLsb' 0 2 = 1#2 then .s
            else if w.extractLsb' 0 2 = 2#2 then .f else .f2, w.extractLsb' 2 2⟩ none))

/-- R116: STT stores the data of D at N and its tag word at N + 1, modulo 65536, and changes nothing else. -/
def Obligations.SttStoresDataAndTags : Prop :=
  EncodedLong 0b001001#6 .stt ∧
  ∀ (s : State) (d : Sel) (N : Word),
    Params.memPresent N = true → Params.memPresent (N + 1#16) = true →
    Completes (.stt d N) s (fun t => UnlessPc d s t
      (Memory.readHalf t.mem N = some (s.reg d).data ∧
        Memory.readHalf t.mem (N + 1#16) = some (tagWord (s.reg d)) ∧
        (∀ b, b ≠ byteAddr N → b ≠ byteAddr N + 1 → b ≠ byteAddr (N + 1#16) → b ≠ byteAddr (N + 1#16) + 1 →
          Memory.read t.mem b = Memory.read s.mem b) ∧
        RegsSame s t ∧ t.pc = s.pc + 2#16 ∧ t.save = s.save ∧ t.inputs = s.inputs ∧ t.events = s.events))

/-- R116 (an inference the spec marks as its own): STT of a register followed by LDT from the same address restores data
and all four tag bits. -/
def Obligations.SttThenLdtRestoresTheRegister : Prop :=
  ∀ (s : State) (d e : Sel) (N : Word), d ≠ pcSel → e ≠ pcSel →
    Params.memPresent N = true → Params.memPresent (N + 1#16) = true →
    Completes (.stt d N) s (fun t => Completes (.ldt e N) t (fun u => u.reg e = s.reg d))

/-- R118: the tag word has the type tag in bits 1:0, the exponent tag in bits 3:2 and zeros above, with the type codes
of R24; setting the tags from a tag word ignores bits 15:4. -/
def Obligations.TagWordLayout : Prop :=
  (∀ r : RegVal, (tagWord r).extractLsb' 2 2 = r.exp ∧ (tagWord r).extractLsb' 4 12 = 0#12 ∧
    (tagWord r).extractLsb' 0 2 = (match r.ty with | .u => 0b00#2 | .s => 0b01#2 | .f => 0b10#2 | .f2 => 0b11#2)) ∧
  (∀ (r : RegVal) (x w : Word), w.extractLsb' 0 4 = (tagWord r).extractLsb' 0 4 → withTagWord x w = ⟨x, r.ty, r.exp⟩)

/-- A half-word of which a byte has not been written cannot be read: a read of it stops, and a fetch from it stops the
step (the model's choice, log 2, of the two that R45 offers). -/
def Obligations.UnwrittenHalfwordsFault : Prop :=
  ∀ (s : State) (a : Word), Params.memPresent a = true →
    (Memory.read s.mem (byteAddr a) = none ∨ Memory.read s.mem (byteAddr a + 1) = none) →
    s.memRead a = .error (.uninitialisedMemory a) ∧
    (s.pc = a → step s = .fault (.uninitialisedMemory a))

/-! ## Branches and moves -/

/-- R122: BSR writes the address after the instruction to D, of type U and exponent tag 0, and branches to
`cur_pc + n` or to N. -/
def Obligations.BsrLinksAndBranches : Prop :=
  EncodedShort 0b010001#6 .bsrShort ∧ EncodedLong 0b010001#6 .bsrLong ∧
  ∀ (s : State) (d : Sel) (n : BitVec 5) (N : Word),
    Completes (.bsrShort d n) s (fun t => UnlessPc d s t
      (t.pc = s.pc + n.signExtend 16 ∧ t.reg d = ⟨s.pc + 1#16, .u, 0#2⟩ ∧
        (∀ j, j ≠ pcSel → j ≠ d → t.reg j = s.reg j) ∧ RestSame s t)) ∧
    Completes (.bsrLong d N) s (fun t => UnlessPc d s t
      (t.pc = N ∧ t.reg d = ⟨s.pc + 2#16, .u, 0#2⟩ ∧
        (∀ j, j ≠ pcSel → j ≠ d → t.reg j = s.reg j) ∧ RestSame s t))

/-- R123: MOV copies data and tags of S to D; with D = 31 it jumps; S = 31 reads the address of the MOV, of type U. -/
def Obligations.MovCopiesDataAndTags : Prop :=
  EncodedRR 0b011001#6 .mov ∧
  ∀ (s : State) (d r : Sel),
    Completes (.mov d r) s (fun t =>
      Wrote s t 1 d (if r = pcSel then ⟨s.pc, .u, 0#2⟩ else s.reg r) none)

/-- R124, R125: BRZ and BRNZ test the 16 data bits of D against zero. -/
def Obligations.BranchesOnZero : Prop :=
  EncodedShort 0b100001#6 .brzShort ∧ EncodedLong 0b100001#6 .brzLong ∧
  EncodedShort 0b101001#6 .brnzShort ∧ EncodedLong 0b101001#6 .brnzLong ∧
  ∀ (s : State) (d : Sel) (n : BitVec 5) (N : Word),
    Completes (.brzShort d n) s (fun t => UnlessPc d s t
      (Jumped s t (if (s.reg d).data = 0x0000#16 then s.pc + n.signExtend 16 else s.pc + 1#16))) ∧
    Completes (.brzLong d N) s (fun t => UnlessPc d s t
      (Jumped s t (if (s.reg d).data = 0x0000#16 then N else s.pc + 2#16))) ∧
    Completes (.brnzShort d n) s (fun t => UnlessPc d s t
      (Jumped s t (if (s.reg d).data ≠ 0x0000#16 then s.pc + n.signExtend 16 else s.pc + 1#16))) ∧
    Completes (.brnzLong d N) s (fun t => UnlessPc d s t
      (Jumped s t (if (s.reg d).data ≠ 0x0000#16 then N else s.pc + 2#16)))

/-- R126, R127: BRP and BRM test bit 15 of D; zero counts as positive. -/
def Obligations.BranchesOnSign : Prop :=
  EncodedShort 0b110001#6 .brpShort ∧ EncodedLong 0b110001#6 .brpLong ∧
  EncodedShort 0b111001#6 .brmShort ∧ EncodedLong 0b111001#6 .brmLong ∧
  ∀ (s : State) (d : Sel) (n : BitVec 5) (N : Word),
    Completes (.brpShort d n) s (fun t => UnlessPc d s t
      (Jumped s t (if (s.reg d).data.toNat < 32768 then s.pc + n.signExtend 16 else s.pc + 1#16))) ∧
    Completes (.brpLong d N) s (fun t => UnlessPc d s t
      (Jumped s t (if (s.reg d).data.toNat < 32768 then N else s.pc + 2#16))) ∧
    Completes (.brmShort d n) s (fun t => UnlessPc d s t
      (Jumped s t (if 32768 ≤ (s.reg d).data.toNat then s.pc + n.signExtend 16 else s.pc + 1#16))) ∧
    Completes (.brmLong d N) s (fun t => UnlessPc d s t
      (Jumped s t (if 32768 ≤ (s.reg d).data.toNat then N else s.pc + 2#16)))

/-! ## Arithmetic -/

/-- R142, R150, R162 on type U: D receives the sum modulo 65536, the residue register the carry 0 or 1. -/
def Obligations.AddUnsignedResult : Prop :=
  ∀ (s : State) (d : Sel) (i : Instr) (len : Nat) (y : Word), (s.reg d).ty = .u →
    AluForm .add .addiShort .addiLong s d i len y →
    Completes i s (fun t => Wrote s t len d ⟨(s.reg d).data + y, .u, (s.reg d).exp⟩
      (some ⟨if 65536 ≤ (s.reg d).data.toNat + y.toNat then 0x0001#16 else 0x0000#16, .u, 0#2⟩))

/-- R142, R150, R162 on type S: the carry c, one of 0, +1 and -1 (0xFFFF), and the result r satisfy
`c * 65536 + r = D + S` exactly. -/
def Obligations.AddSignedResult : Prop :=
  ∀ (s : State) (d : Sel) (i : Instr) (len : Nat) (y : Word), (s.reg d).ty = .s →
    AluForm .add .addiShort .addiLong s d i len y →
    ∃ r c : Word, (c = 0x0000#16 ∨ c = 0x0001#16 ∨ c = 0xFFFF#16) ∧
      c.toInt * 65536 + r.toInt = (s.reg d).data.toInt + y.toInt ∧
      Completes i s (fun t => Wrote s t len d ⟨r, .s, (s.reg d).exp⟩ (some ⟨c, .s, 0#2⟩))

/-- R143, R151, R163 on type U: D receives S - D (I - D) modulo 65536; the residue is the open value P1 of "a borrow
occurred". -/
def Obligations.SubUnsignedResult : Prop :=
  ∀ (s : State) (d : Sel) (i : Instr) (len : Nat) (y : Word), (s.reg d).ty = .u →
    AluForm .sub .subiShort .subiLong s d i len y →
    Completes i s (fun t => Wrote s t len d ⟨y - (s.reg d).data, .u, (s.reg d).exp⟩
      (some ⟨Config.usubResidue (decide (y.toNat < (s.reg d).data.toNat)), .u, 0#2⟩))

/-- R143, R151, R163 on type S: the carry c, one of 0, +1 and -1 (0xFFFF), and the result r satisfy
`c * 65536 + r = S - D` exactly. -/
def Obligations.SubSignedResult : Prop :=
  ∀ (s : State) (d : Sel) (i : Instr) (len : Nat) (y : Word), (s.reg d).ty = .s →
    AluForm .sub .subiShort .subiLong s d i len y →
    ∃ r c : Word, (c = 0x0000#16 ∨ c = 0x0001#16 ∨ c = 0xFFFF#16) ∧
      c.toInt * 65536 + r.toInt = y.toInt - (s.reg d).data.toInt ∧
      Completes i s (fun t => Wrote s t len d ⟨r, .s, (s.reg d).exp⟩ (some ⟨c, .s, 0#2⟩))

/-- R144, R152, R164: D receives the lower and the residue register the upper half of the exact 32-bit product, unsigned
or signed by D's type. -/
def Obligations.MulGivesTheExactProduct : Prop :=
  ∀ (s : State) (d : Sel) (i : Instr) (len : Nat) (y : Word), AluForm .mul .muliShort .muliLong s d i len y →
    ((s.reg d).ty = .u → ∃ lo hi : Word, (hi ++ lo).toNat = (s.reg d).data.toNat * y.toNat ∧
      Completes i s (fun t => UnlessPc d s t
        (Wrote s t len d ⟨lo, .u, (s.reg d).exp⟩ (some ⟨hi, .u, 0#2⟩)))) ∧
    ((s.reg d).ty = .s → ∃ lo hi : Word, (hi ++ lo).toInt = (s.reg d).data.toInt * y.toInt ∧
      Completes i s (fun t => UnlessPc d s t
        (Wrote s t len d ⟨lo, .s, (s.reg d).exp⟩ (some ⟨hi, .s, 0#2⟩))))

/-- R145, R153, R165 on type U with a divisor that is not zero: quotient to D, remainder to the residue register. -/
def Obligations.DivUnsignedResult : Prop :=
  ∀ (s : State) (d : Sel) (i : Instr) (len : Nat) (y : Word), (s.reg d).ty = .u → y ≠ 0x0000#16 →
    AluForm .div .diviShort .diviLong s d i len y →
    ∃ q m : Word, (s.reg d).data.toNat = q.toNat * y.toNat + m.toNat ∧ m.toNat < y.toNat ∧
      Completes i s (fun t => UnlessPc d s t
        (Wrote s t len d ⟨q, .u, (s.reg d).exp⟩ (some ⟨m, .u, 0#2⟩)))

/-- R145, R153, R165 on type S where R153 determines the result: no operand negative and the divisor not zero, or an exact
division that is not -32768 / -1, whose remainder is 0. -/
def Obligations.DivSignedResult : Prop :=
  ∀ (s : State) (d : Sel) (i : Instr) (len : Nat) (y : Word), (s.reg d).ty = .s →
    AluForm .div .diviShort .diviLong s d i len y →
    (0 ≤ (s.reg d).data.toInt → 0 < y.toInt →
      ∃ q m : Word, (s.reg d).data.toInt = q.toInt * y.toInt + m.toInt ∧ 0 ≤ m.toInt ∧ m.toInt < y.toInt ∧
        Completes i s (fun t => Wrote s t len d ⟨q, .s, (s.reg d).exp⟩ (some ⟨m, .s, 0#2⟩))) ∧
    (y ≠ 0x0000#16 → y.toInt ∣ (s.reg d).data.toInt → ¬((s.reg d).data = 0x8000#16 ∧ y = 0xFFFF#16) →
      ∃ q : Word, (s.reg d).data.toInt = q.toInt * y.toInt ∧
        Completes i s (fun t => Wrote s t len d ⟨q, .s, (s.reg d).exp⟩ (some ⟨0x0000#16, .s, 0#2⟩)))

/-- R145, R153, R165 where R153 leaves the result open (P2): no trap is raised, and D and the residue register receive
the open pair, a function of the operands. -/
def Obligations.DivOpenCornersComplete : Prop :=
  ∀ (s : State) (d : Sel) (i : Instr) (len : Nat) (y : Word), AluForm .div .diviShort .diviLong s d i len y →
    ((s.reg d).ty = .u → y = 0x0000#16 →
      Completes i s (fun t => UnlessPc d s t
        (Wrote s t len d ⟨(Config.divCorner (s.reg d).data y .u).1, .u, (s.reg d).exp⟩
          (some ⟨(Config.divCorner (s.reg d).data y .u).2, .u, 0#2⟩)))) ∧
    ((s.reg d).ty = .s →
      (y = 0x0000#16 ∨ ((s.reg d).data.toInt < 0 ∨ y.toInt < 0) ∧ ¬ y.toInt ∣ (s.reg d).data.toInt ∨
        (s.reg d).data = 0x8000#16 ∧ y = 0xFFFF#16) →
      Completes i s (fun t => Wrote s t len d ⟨(Config.divCorner (s.reg d).data y .s).1, .s, (s.reg d).exp⟩
        (some ⟨(Config.divCorner (s.reg d).data y .s).2, .s, 0#2⟩)))

/-- R150: AddCore, its results as integers. -/
def Obligations.AddCoreIsExact : Prop :=
  ∀ a b : Word,
    ((addU a b).1.toNat = (a.toNat + b.toNat) % 65536 ∧
      (addU a b).2 = (if a.toNat + b.toNat > 65535 then 0x0001#16 else 0x0000#16)) ∧
    ((addS a b).1 = BitVec.ofInt 16 (a.toInt + b.toInt) ∧
      (addS a b).2 = (if a.toInt + b.toInt > 32767 then 0x0001#16
        else if a.toInt + b.toInt < -32768 then 0xFFFF#16 else 0x0000#16) ∧
      a.toInt + b.toInt = (addS a b).2.toInt * 65536 + (addS a b).1.toInt ∧
      ((addS a b).2 ≠ 0x0000#16 ↔ ¬(-32768 ≤ a.toInt + b.toInt ∧ a.toInt + b.toInt ≤ 32767)))

/-- R161 (an inference the spec marks as its own): for an integer D an immediate instruction leaves exactly what its
register form leaves with an S register that holds the pattern I and D's type; the short form is the same step, the long
form differs in the length alone. -/
def Obligations.ImmediateFormsAgreeWithRegisterForms : Prop :=
  ∀ (s : State) (d r : Sel), (s.reg d).ty.isFloat = false → (s.reg r).ty = (s.reg d).ty →
    (∀ n : BitVec 5, (s.reg r).data = n.signExtend 16 →
      exec (.addiShort d n) s = exec (.add d r) s ∧ exec (.subiShort d n) s = exec (.sub d r) s ∧
      exec (.muliShort d n) s = exec (.mul d r) s ∧ exec (.diviShort d n) s = exec (.div d r) s ∧
      exec (.andiShort d n) s = exec (.and d r) s ∧ exec (.oriShort d n) s = exec (.or d r) s ∧
      exec (.xoriShort d n) s = exec (.xor d r) s) ∧
    (∀ (N : Word) (p : Instr × Instr), (s.reg r).data = N →
      p ∈ [(.addiLong d N, .add d r), (.subiLong d N, .sub d r), (.muliLong d N, .mul d r), (.diviLong d N, .div d r),
        (.andiLong d N, .and d r), (.oriLong d N, .or d r), (.xoriLong d N, .xor d r)] →
      Completes p.1 s (fun t => Completes p.2 s (fun u =>
        RegsSame u t ∧ RestSame u t ∧
        (d ≠ pcSel → t.pc = u.pc + 1#16) ∧ (d = pcSel → t.pc = u.pc))))

/-! ## Logic, compare, shift and fields -/

/-- R146, R147, R148: AND, OR and XOR act on the 16 data bits whatever the types; D keeps its tags. -/
def Obligations.LogicOnRegisters : Prop :=
  EncodedRR 0b100101#6 .and ∧ EncodedRR 0b101101#6 .or ∧ EncodedRR 0b110101#6 .xor ∧
  ∀ (s : State) (d r : Sel),
    Completes (.and d r) s (fun t => UnlessPc d s t
      (Wrote s t 1 d ⟨(s.reg d).data &&& (s.reg r).data, (s.reg d).ty, (s.reg d).exp⟩ none)) ∧
    Completes (.or d r) s (fun t => UnlessPc d s t
      (Wrote s t 1 d ⟨(s.reg d).data ||| (s.reg r).data, (s.reg d).ty, (s.reg d).exp⟩ none)) ∧
    Completes (.xor d r) s (fun t => UnlessPc d s t
      (Wrote s t 1 d ⟨(s.reg d).data ^^^ (s.reg r).data, (s.reg d).ty, (s.reg d).exp⟩ none))

/-- R166, R167, R168: ANDI, ORI and XORI, with the sign-extended n or with N. -/
def Obligations.LogicOnImmediates : Prop :=
  EncodedShort 0b100111#6 .andiShort ∧ EncodedLong 0b100111#6 .andiLong ∧
  EncodedShort 0b101111#6 .oriShort ∧ EncodedLong 0b101111#6 .oriLong ∧
  EncodedShort 0b110111#6 .xoriShort ∧ EncodedLong 0b110111#6 .xoriLong ∧
  ∀ (s : State) (d : Sel) (len : Nat) (y : Word) (a o x : Instr),
    ((∃ n : BitVec 5, a = .andiShort d n ∧ o = .oriShort d n ∧ x = .xoriShort d n ∧ len = 1 ∧ y = n.signExtend 16) ∨
      (∃ N : Word, a = .andiLong d N ∧ o = .oriLong d N ∧ x = .xoriLong d N ∧ len = 2 ∧ y = N)) →
    Completes a s (fun t => UnlessPc d s t
      (Wrote s t len d ⟨(s.reg d).data &&& y, (s.reg d).ty, (s.reg d).exp⟩ none)) ∧
    Completes o s (fun t => UnlessPc d s t
      (Wrote s t len d ⟨(s.reg d).data ||| y, (s.reg d).ty, (s.reg d).exp⟩ none)) ∧
    Completes x s (fun t => UnlessPc d s t
      (Wrote s t len d ⟨(s.reg d).data ^^^ y, (s.reg d).ty, (s.reg d).exp⟩ none))

/-- R149: CMP puts D - S into the residue register, of D's type and exponent tag 0, whatever D is.  For operands of
different types or of a float type the difference, and it alone, is an open value (the model's choice, log 8). -/
def Obligations.CmpPutsDMinusSIntoResidue : Prop :=
  ∀ (s : State) (d r : Sel),
    ((s.reg d).ty = (s.reg r).ty → (s.reg d).ty.isFloat = false →
      Completes (.cmp d r) s (fun t => UnlessPc d s t
        (Wrote s t 1 resSel ⟨(s.reg d).data - (s.reg r).data, (s.reg d).ty, 0#2⟩ none))) ∧
    (((s.reg d).ty ≠ (s.reg r).ty ∨ (s.reg d).ty.isFloat = true) →
      ∃ v : Word, Completes (.cmp d r) s (fun t => UnlessPc d s t
        (Wrote s t 1 resSel ⟨v, (s.reg d).ty, 0#2⟩ none)))

/-- R169: CMPI puts I - D into the residue register, of D's type and exponent tag 0, whatever D is.  For a float D the
difference, and it alone, is an open value (the model's choice, log 7). -/
def Obligations.CmpiPutsIMinusDIntoResidue : Prop :=
  ∀ (s : State) (d : Sel) (i : Instr) (len : Nat) (y : Word),
    ((∃ n : BitVec 5, i = .cmpiShort d n ∧ len = 1 ∧ y = n.signExtend 16) ∨
      (∃ N : Word, i = .cmpiLong d N ∧ len = 2 ∧ y = N)) →
    ((s.reg d).ty.isFloat = false →
      Completes i s (fun t => UnlessPc d s t
        (Wrote s t len resSel ⟨y - (s.reg d).data, (s.reg d).ty, 0#2⟩ none))) ∧
    ((s.reg d).ty.isFloat = true →
      ∃ v : Word, Completes i s (fun t => UnlessPc d s t
        (Wrote s t len resSel ⟨v, (s.reg d).ty, 0#2⟩ none)))

/-- R202 on types U and S: a positive n shifts left, a negative one right, logically for U and arithmetically for S; the
residue data are the open value P3, of D's type. -/
def Obligations.ShiftMultipliesByAPowerOfTwo : Prop :=
  ∀ (s : State) (d : Sel) (n : BitVec 5), (s.reg d).ty.isFloat = false →
    ∃ v : Word,
      (0 ≤ n.toInt → v.toNat = (s.reg d).data.toNat * 2 ^ n.toInt.toNat % 65536) ∧
      (n.toInt < 0 → (s.reg d).ty = .u → v.toNat = (s.reg d).data.toNat / 2 ^ (-n.toInt).toNat) ∧
      (n.toInt < 0 → (s.reg d).ty = .s → v.toInt = (s.reg d).data.toInt / 2 ^ (-n.toInt).toNat) ∧
      Completes (.shft d n) s (fun t => UnlessPc d s t
        (Wrote s t 1 d ⟨v, (s.reg d).ty, (s.reg d).exp⟩
          (some ⟨Config.shftResidue (s.reg d).data n (s.reg d).ty, (s.reg d).ty, 0#2⟩)))

/-- R204, R200: EXTRCT puts the W bits of D from bit M up into the residue register, zero extended for uu = 0 and sign
extended for uu = 1, of the type uu, whatever D and its tags are; it is refused by name for a reserved field value. -/
def Obligations.ExtractPutsTheFieldIntoResidue : Prop :=
  EncodedLong 0b000011#6 .extrct ∧
  ∀ (s : State) (d : Sel) (N : Word) (W M : Nat), M = (N.extractLsb' 0 4).toNat →
    W = (if N.extractLsb' 6 4 = 0#4 then 16 else (N.extractLsb' 6 4).toNat) →
    (d = pcSel → Completes (.extrct d N) s (fun t => Trapped s t 0x0060#16)) ∧
    (d ≠ pcSel → ¬(N.extractLsb' 10 4 = 0#4 ∧ N.extractLsb' 4 2 = 0#2 ∧ M + W ≤ 16) →
      exec (.extrct d N) s = .refused (.fieldDescriptor N)) ∧
    (d ≠ pcSel → N.extractLsb' 10 4 = 0#4 → N.extractLsb' 4 2 = 0#2 → M + W ≤ 16 → N.getLsbD 15 = true →
      exec (.extrct d N) s = .refused (.extractType N)) ∧
    (d ≠ pcSel → N.extractLsb' 10 4 = 0#4 → N.extractLsb' 4 2 = 0#2 → M + W ≤ 16 → N.getLsbD 15 = false →
      ∃ v : Word,
        (∀ b, b < 16 → v.getLsbD b =
          if b < W then (s.reg d).data.getLsbD (M + b) else (N.getLsbD 14 && (s.reg d).data.getLsbD (M + W - 1))) ∧
        Completes (.extrct d N) s (fun t =>
          Wrote s t 2 resSel ⟨v, if N.getLsbD 14 then .s else .u, 0#2⟩ none))

/-- R206, R200: INSRT puts the low W bits of the residue register into bits M + W - 1 down to M of D and keeps the other
bits and the tags of D, whatever uu is; it is refused by name for a reserved field value. -/
def Obligations.InsertPutsResidueBitsIntoTheField : Prop :=
  EncodedLong 0b001011#6 .insrt ∧
  ∀ (s : State) (d : Sel) (N : Word) (W M : Nat), M = (N.extractLsb' 0 4).toNat →
    W = (if N.extractLsb' 6 4 = 0#4 then 16 else (N.extractLsb' 6 4).toNat) →
    (d = pcSel → Completes (.insrt d N) s (fun t => Trapped s t 0x0060#16)) ∧
    (d ≠ pcSel → ¬(N.extractLsb' 10 4 = 0#4 ∧ N.extractLsb' 4 2 = 0#2 ∧ M + W ≤ 16) →
      exec (.insrt d N) s = .refused (.fieldDescriptor N)) ∧
    (d ≠ pcSel → N.extractLsb' 10 4 = 0#4 → N.extractLsb' 4 2 = 0#2 → M + W ≤ 16 →
      ∃ v : Word,
        (∀ b, b < 16 → v.getLsbD b =
          if M ≤ b ∧ b < M + W then (s.reg resSel).data.getLsbD (b - M) else (s.reg d).data.getLsbD b) ∧
        Completes (.insrt d N) s (fun t => Wrote s t 2 d ⟨v, (s.reg d).ty, (s.reg d).exp⟩ none))

/-- R206 (an inference the spec marks as its own): INSRT after EXTRCT with the same descriptor leaves a D that is not the
residue register unchanged. -/
def Obligations.InsertAfterExtractLeavesD : Prop :=
  ∀ (s : State) (d : Sel) (N : Word), d ≠ pcSel → d ≠ resSel → N.extractLsb' 10 4 = 0#4 → N.extractLsb' 4 2 = 0#2 →
    (N.extractLsb' 0 4).toNat + (if N.extractLsb' 6 4 = 0#4 then 16 else (N.extractLsb' 6 4).toNat) ≤ 16 →
    N.getLsbD 15 = false →
    Completes (.extrct d N) s (fun t => Completes (.insrt d N) t (fun u => u.reg d = s.reg d))

/-! ## Load immediate, load, store -/

/-- R180, R181: LDIU and LDIS load the sign-extended n or N, with type U or S and exponent tag 0; LDIU with D = 31
jumps. -/
def Obligations.LoadImmediateSetsDataAndType : Prop :=
  EncodedShort 0b100011#6 .ldiuShort ∧ EncodedLong 0b100011#6 .ldiuLong ∧
  EncodedShort 0b101011#6 .ldisShort ∧ EncodedLong 0b101011#6 .ldisLong ∧
  ∀ (s : State) (d : Sel) (n : BitVec 5) (N : Word),
    Completes (.ldiuShort d n) s (fun t => Wrote s t 1 d ⟨n.signExtend 16, .u, 0#2⟩ none) ∧
    Completes (.ldiuLong d N) s (fun t => Wrote s t 2 d ⟨N, .u, 0#2⟩ none) ∧
    Completes (.ldisShort d n) s (fun t => UnlessPc d s t (Wrote s t 1 d ⟨n.signExtend 16, .s, 0#2⟩ none)) ∧
    Completes (.ldisLong d N) s (fun t => UnlessPc d s t (Wrote s t 2 d ⟨N, .s, 0#2⟩ none))

/-- R182, R183, R232, R233, R238, R239: LDIF, LDIF2, fLDF, fLDF2, CVTF and CVTF2 complete (the model's choice, log 7: the
spec gives the type tag and leaves the pattern undefined): the destination receives the float type and open data, and,
for CVTF and CVTF2, the residue register the open value P4. -/
def Obligations.FloatLoadsAndConversionsComplete : Prop :=
  ∀ (s : State) (d : Sel),
    (∀ n : BitVec 5, ∃ v : RegVal, v.ty = .f ∧
      Completes (.ldifShort d n) s (fun t => UnlessPc d s t (Wrote s t 1 d v none))) ∧
    (∀ N : Word, ∃ v : RegVal, v.ty = .f ∧
      Completes (.ldifLong d N) s (fun t => UnlessPc d s t (Wrote s t 2 d v none))) ∧
    (∀ n : BitVec 5, ∃ v : RegVal, v.ty = .f2 ∧
      Completes (.ldif2Short d n) s (fun t => UnlessPc d s t (Wrote s t 1 d v none))) ∧
    (∀ N : Word, ∃ v : RegVal, v.ty = .f2 ∧
      Completes (.ldif2Long d N) s (fun t => UnlessPc d s t (Wrote s t 2 d v none))) ∧
    (∀ x : Word, s.memRead (s.reg d).data = .ok x →
      (∃ v : RegVal, v.ty = .f ∧ Completes (.fldf d) s (fun t => UnlessPc d s t (Wrote s t 1 resSel v none))) ∧
      (∃ v : RegVal, v.ty = .f2 ∧ Completes (.fldf2 d) s (fun t => UnlessPc d s t (Wrote s t 1 resSel v none)))) ∧
    (∃ v : RegVal, v.ty = .f ∧ Completes (.cvtf d) s (fun t => UnlessPc d s t
      (Wrote s t 1 d v (some (Config.cvtResidue (s.reg d).data (s.reg d).ty .f))))) ∧
    (∃ v : RegVal, v.ty = .f2 ∧ Completes (.cvtf2 d) s (fun t => UnlessPc d s t
      (Wrote s t 1 d v (some (Config.cvtResidue (s.reg d).data (s.reg d).ty .f2)))))

/-- R184: LD loads the half-word at the address in S and keeps D's type and exponent tags; with D = 31 it jumps.  For a
float D the data, and they alone, are open (the model's choice, log 7). -/
def Obligations.LoadReadsMemoryAtS : Prop :=
  ∀ (s : State) (d r : Sel) (x : Word), s.memRead (s.reg r).data = .ok x →
    ((s.reg d).ty.isFloat = false →
      Completes (.ld d r) s (fun t => Wrote s t 1 d ⟨x, (s.reg d).ty, (s.reg d).exp⟩ none)) ∧
    ((s.reg d).ty.isFloat = true →
      ∃ v : Word, Completes (.ld d r) s (fun t => Wrote s t 1 d ⟨v, (s.reg d).ty, (s.reg d).exp⟩ none))

/-- R185, R234: ST stores D at the address in S, fST the residue register at the address in D, and nothing else changes.
For a float source the half-word is open (the model's choice, log 7). -/
def Obligations.StoresWriteOneHalfword : Prop :=
  ∀ (s : State) (d : Sel),
    (∀ r : Sel, Params.memPresent (s.reg r).data = true →
      ∃ v : Word, ((s.reg d).ty.isFloat = false → v = (s.reg d).data) ∧
        Completes (.st d r) s (fun t => UnlessPc d s t (Stored s t 1 (s.reg r).data v))) ∧
    (Params.memPresent (s.reg d).data = true →
      ∃ v : Word, ((s.reg resSel).ty.isFloat = false → v = (s.reg resSel).data) ∧
        Completes (.fst d) s (fun t => UnlessPc d s t (Stored s t 1 (s.reg d).data v)))

/-- R230, R231: fLDU and fLDS load the residue register from the address in D, with type U or S and exponent tag 0,
whatever D is. -/
def Obligations.TypedLoadsWriteTheResidue : Prop :=
  EncodedFunct 0x0C#5 .fldu ∧ EncodedFunct 0x0D#5 .flds ∧
  ∀ (s : State) (d : Sel) (x : Word), s.memRead (s.reg d).data = .ok x →
    Completes (.fldu d) s (fun t => UnlessPc d s t (Wrote s t 1 resSel ⟨x, .u, 0#2⟩ none)) ∧
    Completes (.flds d) s (fun t => UnlessPc d s t (Wrote s t 1 resSel ⟨x, .s, 0#2⟩ none))

/-- LD, LDT and the fLD functions whose half-word cannot be read stop with the fault of that read (the model's choice,
log 2, of the two that R45 offers). -/
def Obligations.UnreadableOperandsFault : Prop :=
  ∀ (s : State) (d : Sel) (e : Fault),
    (∀ r : Sel, s.memRead (s.reg r).data = .error e → exec (.ld d r) s = .fault e) ∧
    (∀ N : Word, d ≠ pcSel →
      (s.memRead N = .error e ∨ (∃ v, s.memRead N = .ok v) ∧ s.memRead (N + 1#16) = .error e) →
      exec (.ldt d N) s = .fault e) ∧
    (d ≠ pcSel → s.memRead (s.reg d).data = .error e →
      exec (.fldu d) s = .fault e ∧ exec (.flds d) s = .fault e ∧
      exec (.fldf d) s = .fault e ∧ exec (.fldf2 d) s = .fault e)

/-! ## FUNCT -/

/-- R222 to R225: SETU, SETS, SETF and SETF2 set the type tag of D and nothing else. -/
def Obligations.TypeCoercionsSetTheTypeTag : Prop :=
  EncodedFunct 0x00#5 .setu ∧ EncodedFunct 0x01#5 .sets ∧ EncodedFunct 0x02#5 .setf ∧ EncodedFunct 0x03#5 .setf2 ∧
  ∀ (s : State) (d : Sel) (p : Instr × DType),
    p ∈ [(.setu d, .u), (.sets d, .s), (.setf d, .f), (.setf2 d, .f2)] →
    Completes p.1 s (fun t => UnlessPc d s t (Wrote s t 1 d ⟨(s.reg d).data, p.2, (s.reg d).exp⟩ none))

/-- R226, R227: ABS and NABS of a signed D (ABS of -32768 apart, which is open), ABS of an unsigned D; tags and residue
are unchanged. -/
def Obligations.AbsoluteValuesOfIntegers : Prop :=
  ∀ (s : State) (d : Sel),
    ((s.reg d).ty = .u → Completes (.abs d) s (fun t => UnlessPc d s t (Wrote s t 1 d (s.reg d) none))) ∧
    ((s.reg d).ty = .s → (s.reg d).data ≠ 0x8000#16 → ∃ v : Word, v.toInt = |(s.reg d).data.toInt| ∧
      Completes (.abs d) s (fun t => Wrote s t 1 d ⟨v, .s, (s.reg d).exp⟩ none)) ∧
    ((s.reg d).ty = .s → ∃ v : Word, v.toInt = -|(s.reg d).data.toInt| ∧
      Completes (.nabs d) s (fun t => Wrote s t 1 d ⟨v, .s, (s.reg d).exp⟩ none))

/-- R228: TAG puts the tag word of D into the residue register, of type U and exponent tag 0, whatever D is. -/
def Obligations.TagPutsTheTagWordIntoResidue : Prop :=
  EncodedFunct 0x06#5 .tag ∧
  ∀ (s : State) (d : Sel),
    ∃ w : Word, w.extractLsb' 2 2 = (s.reg d).exp ∧ w.extractLsb' 4 12 = 0#12 ∧
      w.extractLsb' 0 2 = (match (s.reg d).ty with | .u => 0#2 | .s => 1#2 | .f => 2#2 | .f2 => 3#2) ∧
      Completes (.tag d) s (fun t => UnlessPc d s t (Wrote s t 1 resSel ⟨w, .u, 0#2⟩ none))

/-- R229, for `ITAG_SOURCE = residue_tag`: ITAG gives D the tags of the residue register and keeps its data. -/
def Obligations.ItagCopiesTheResidueTags : Prop :=
  ∀ (s : State) (d : Sel),
    Completes (.itag d) s (fun t => UnlessPc d s t
      (Wrote s t 1 d ⟨(s.reg d).data, (s.reg resSel).ty, (s.reg resSel).exp⟩ none))

/-- R236, R237 where the value has a counterpart: CVTU and CVTS keep the data bits and set the type; the residue is the
open value P4. -/
def Obligations.IntegerConversionsKeepTheData : Prop :=
  ∀ (s : State) (d : Sel),
    (((s.reg d).ty = .u ∨ (s.reg d).ty = .s ∧ 0 ≤ (s.reg d).data.toInt) →
      Completes (.cvtu d) s (fun t => UnlessPc d s t
        (Wrote s t 1 d ⟨(s.reg d).data, .u, (s.reg d).exp⟩
          (some (Config.cvtResidue (s.reg d).data (s.reg d).ty .u))))) ∧
    (((s.reg d).ty = .s ∨ (s.reg d).ty = .u ∧ (s.reg d).data.toNat ≤ 32767) →
      Completes (.cvts d) s (fun t => UnlessPc d s t
        (Wrote s t 1 d ⟨(s.reg d).data, .s, (s.reg d).exp⟩
          (some (Config.cvtResidue (s.reg d).data (s.reg d).ty .s)))))

/-! ## Where the spec leaves the value open, the instruction completes -/

/-- R140, R202 on float types (the model's choice, log 7): ADD, SUB, MUL, DIV, their immediate forms and SHFT complete.  D
receives an open value of its type, of which SHFT keeps the exponent tag too; the residue register, unless D is it,
receives open data (for SHFT the open value P3) with D's type and exponent tag 0; nothing else changes. -/
def Obligations.FloatArithmeticCompletes : Prop :=
  ∀ (s : State) (d : Sel) (i : Instr) (len : Nat) (y : Word), (s.reg d).ty.isFloat = true →
    (AluForm .add .addiShort .addiLong s d i len y ∨ AluForm .sub .subiShort .subiLong s d i len y ∨
      AluForm .mul .muliShort .muliLong s d i len y ∨ AluForm .div .diviShort .diviLong s d i len y ∨
      (∃ n : BitVec 5, i = .shft d n ∧ len = 1)) →
    ∃ (v : RegVal) (w : Word), v.ty = (s.reg d).ty ∧
      (∀ n : BitVec 5, i = .shft d n → v.exp = (s.reg d).exp ∧ w = Config.shftResidue (s.reg d).data n (s.reg d).ty) ∧
      Completes i s (fun t => Wrote s t len d v (some ⟨w, (s.reg d).ty, 0#2⟩))

/-- R226, R227, R236, R237 where the spec leaves the value open (logs 7, 9, 10, 11): ABS of -32768 and of a float, NABS of
an unsigned value and of a float, CVTU of a negative value and of a float, CVTS of a value above 32767 and of a float
complete; the type tag is the stated one, ABS and NABS keep the exponent tag of every D, CVTU and CVTS that of an integer
D, and nothing but D (for CVTU and CVTS also the residue register) changes. -/
def Obligations.OpenOneOperandValuesComplete : Prop :=
  ∀ (s : State) (d : Sel), d ≠ pcSel →
    (((s.reg d).ty = .s ∧ (s.reg d).data = 0x8000#16 ∨ (s.reg d).ty.isFloat = true) →
      ∃ v : Word, Completes (.abs d) s (fun t => Wrote s t 1 d ⟨v, (s.reg d).ty, (s.reg d).exp⟩ none)) ∧
    (((s.reg d).ty = .u ∨ (s.reg d).ty.isFloat = true) →
      ∃ v : Word, Completes (.nabs d) s (fun t => Wrote s t 1 d ⟨v, (s.reg d).ty, (s.reg d).exp⟩ none)) ∧
    (((s.reg d).ty = .s ∧ (s.reg d).data.toInt < 0 ∨ (s.reg d).ty.isFloat = true) →
      ∃ v : RegVal, v.ty = .u ∧ ((s.reg d).ty.isFloat = false → v.exp = (s.reg d).exp) ∧
        Completes (.cvtu d) s (fun t =>
          Wrote s t 1 d v (some (Config.cvtResidue (s.reg d).data (s.reg d).ty .u)))) ∧
    (((s.reg d).ty = .u ∧ 32767 < (s.reg d).data.toNat ∨ (s.reg d).ty.isFloat = true) →
      ∃ v : RegVal, v.ty = .s ∧ ((s.reg d).ty.isFloat = false → v.exp = (s.reg d).exp) ∧
        Completes (.cvts d) s (fun t =>
          Wrote s t 1 d v (some (Config.cvtResidue (s.reg d).data (s.reg d).ty .s))))

/-! ## Decoding and the step -/

/-- Words written out from the encodings of 30_encoding.md decode to the instructions they stand for. -/
def Obligations.WordsOfTheSpecDecode : Prop :=
  decode [0x45#8, 0x10#8] = .ok (.add 1#5 2#5) ∧
  decode [0x41#8, 0x81#8, 0x00#8, 0x20#8] = .ok (.ldt 5#5 0x2000#16) ∧
  decode [0x61#8, 0xE8#8] = .ok (.brzShort 1#5 0b11101#5) ∧
  decode [0x8B#8, 0x88#8] = .ok (.fst 2#5) ∧
  decode [0x43#8, 0x80#8, 0x0C#8, 0x41#8] = .ok (.extrct 1#5 0x410C#16)

/-- When the bytes at the program counter decode to an instruction, the step is exec of that instruction: two bytes
where the first half-word is not a long form, four where it is, the last two from the next address modulo 65536. -/
def Obligations.StepRunsTheDecodedInstruction : Prop :=
  ∀ (s : State) (w N : Word) (i : Instr), s.memRead s.pc = .ok w →
    (isLong w = false → decode (bytesOfWord w) = .ok i → step s = exec i s) ∧
    (isLong w = true → s.memRead (s.pc + 1#16) = .ok N → decode (bytesOfWord w ++ bytesOfWord N) = .ok i →
      step s = exec i s)

/-- Decoding the bytes of any well-formed instruction gives it back, whatever bytes follow. -/
def Obligations.DecodeOfEncodeIsTheInstruction : Prop :=
  ∀ (i : Instr) (after : List Byte), i.wf = true → decode (encodeBytes i ++ after) = .ok i

/-- Every first half-word selects one instruction, which is well-formed and whose encoding is that half-word, followed
by N exactly where R97 says that the form is long; its length in half-words is R97's. -/
def Obligations.EncodeOfDecodeIsTheHalfwords : Prop :=
  ∀ w N : Word, (decodeHalfwords w N).wf = true ∧
    encode (decodeHalfwords w N) = (if isLong w then [w, N] else [w]) ∧
    (decodeHalfwords w N).len = (if isLong w then 2 else 1)

/-! ## The whole machine -/

/-- Every step keeps the canonical form of memory: strictly rising addresses inside the address space. -/
def Obligations.StepKeepsMemoryCanonical : Prop :=
  ∀ s t : State, s.mem.wf = true → step s = .next t → t.mem.wf = true

/-- R55: no instruction but ST, STT and fST changes a byte of memory. -/
def Obligations.OnlyStoresChangeMemory : Prop :=
  ∀ (i : Instr) (s t : State), stores i = false → exec i s = .next t →
    ∀ b, Memory.read t.mem b = Memory.read s.mem b

/-- The save register changes by the entry of a trap and by OUT to its port, and by nothing else (R33, R41, R266). -/
def Obligations.SaveChangesByTrapsAndOutAlone : Prop :=
  ∀ (i : Instr) (s t : State), exec i s = .next t →
    t.save = s.save ∨
    (Trapped s t t.pc ∧ t.pc ∈ [0x0020#16, 0x0040#16, 0x0060#16, 0x0080#16]) ∨
    (∃ d : Sel, i = .outPort d 0b11111#5 ∧ t.save = (s.reg d).data)

/-- R34 (an inference the spec marks as its own): an instruction that is not in its table and whose D is not the residue
register leaves the residue register, data and tags, unchanged. -/
def Obligations.ResidueChangesByItsWritersAlone : Prop :=
  ∀ (i : Instr) (s t : State), writesResidue i = false → dField i ≠ some resSel → exec i s = .next t →
    t.reg resSel = s.reg resSel
end

