-- ==== Sys2Proof/Laws/State.lean ====
section
/-! SUPPORT. One lemma per field of State per update, so that no proof unfolds a record update. -/

namespace Sys2Proof.Machine

variable (s : State)

@[simp] theorem State.advance_regs (n : Nat) : (s.advance n).regs = s.regs := rfl
@[simp] theorem State.advance_pc (n : Nat) : (s.advance n).pc = s.pc + BitVec.ofNat 16 n := rfl
@[simp] theorem State.advance_save (n : Nat) : (s.advance n).save = s.save := rfl
@[simp] theorem State.advance_mem (n : Nat) : (s.advance n).mem = s.mem := rfl
@[simp] theorem State.advance_inputs (n : Nat) : (s.advance n).inputs = s.inputs := rfl
@[simp] theorem State.advance_events (n : Nat) : (s.advance n).events = s.events := rfl
@[simp] theorem State.advance_freeCount (n : Nat) : (s.advance n).freeCount = s.freeCount := rfl

@[simp] theorem State.jump_regs (w : Word) : (s.jump w).regs = s.regs := rfl
@[simp] theorem State.jump_pc (w : Word) : (s.jump w).pc = w := rfl
@[simp] theorem State.jump_save (w : Word) : (s.jump w).save = s.save := rfl
@[simp] theorem State.jump_mem (w : Word) : (s.jump w).mem = s.mem := rfl
@[simp] theorem State.jump_inputs (w : Word) : (s.jump w).inputs = s.inputs := rfl
@[simp] theorem State.jump_events (w : Word) : (s.jump w).events = s.events := rfl
@[simp] theorem State.jump_freeCount (w : Word) : (s.jump w).freeCount = s.freeCount := rfl

@[simp] theorem State.draw_regs (n : Nat) : (s.draw n).regs = s.regs := rfl
@[simp] theorem State.draw_pc (n : Nat) : (s.draw n).pc = s.pc := rfl
@[simp] theorem State.draw_save (n : Nat) : (s.draw n).save = s.save := rfl
@[simp] theorem State.draw_mem (n : Nat) : (s.draw n).mem = s.mem := rfl
@[simp] theorem State.draw_inputs (n : Nat) : (s.draw n).inputs = s.inputs := rfl
@[simp] theorem State.draw_events (n : Nat) : (s.draw n).events = s.events := rfl
@[simp] theorem State.draw_freeCount (n : Nat) : (s.draw n).freeCount = s.freeCount + n := rfl

@[simp] theorem State.takeTrap_regs (k : TrapKind) : (s.takeTrap k).regs = s.regs := rfl
@[simp] theorem State.takeTrap_pc (k : TrapKind) : (s.takeTrap k).pc = Params.trapLocation k := rfl
@[simp] theorem State.takeTrap_save (k : TrapKind) : (s.takeTrap k).save = s.pc := rfl
@[simp] theorem State.takeTrap_mem (k : TrapKind) : (s.takeTrap k).mem = s.mem := rfl
@[simp] theorem State.takeTrap_inputs (k : TrapKind) : (s.takeTrap k).inputs = s.inputs := rfl
@[simp] theorem State.takeTrap_events (k : TrapKind) : (s.takeTrap k).events = s.events := rfl
@[simp] theorem State.takeTrap_freeCount (k : TrapKind) : (s.takeTrap k).freeCount = s.freeCount := rfl

@[simp] theorem State.returnFromTrap_regs : (s.returnFromTrap).regs = s.regs := rfl
@[simp] theorem State.returnFromTrap_pc : (s.returnFromTrap).pc = s.save := rfl
@[simp] theorem State.returnFromTrap_save : (s.returnFromTrap).save = s.save := rfl
@[simp] theorem State.returnFromTrap_mem : (s.returnFromTrap).mem = s.mem := rfl
@[simp] theorem State.returnFromTrap_inputs : (s.returnFromTrap).inputs = s.inputs := rfl
@[simp] theorem State.returnFromTrap_events : (s.returnFromTrap).events = s.events := rfl
@[simp] theorem State.returnFromTrap_freeCount : (s.returnFromTrap).freeCount = s.freeCount := rfl

@[simp] theorem State.resetEvent_regs : (s.resetEvent).regs = s.regs := rfl
@[simp] theorem State.resetEvent_pc : (s.resetEvent).pc = 0x0000#16 := rfl
@[simp] theorem State.resetEvent_save : (s.resetEvent).save = s.save := rfl
@[simp] theorem State.resetEvent_mem : (s.resetEvent).mem = s.mem := rfl
@[simp] theorem State.resetEvent_inputs : (s.resetEvent).inputs = s.inputs := rfl
@[simp] theorem State.resetEvent_events : (s.resetEvent).events = s.events := rfl
@[simp] theorem State.resetEvent_freeCount : (s.resetEvent).freeCount = s.freeCount := rfl

@[simp] theorem State.setReg_save (i : Sel) (v : RegVal) : (s.setReg i v).save = s.save := by unfold State.setReg; split <;> rfl
@[simp] theorem State.setReg_mem (i : Sel) (v : RegVal) : (s.setReg i v).mem = s.mem := by unfold State.setReg; split <;> rfl
@[simp] theorem State.setReg_inputs (i : Sel) (v : RegVal) : (s.setReg i v).inputs = s.inputs := by unfold State.setReg; split <;> rfl
@[simp] theorem State.setReg_events (i : Sel) (v : RegVal) : (s.setReg i v).events = s.events := by unfold State.setReg; split <;> rfl
@[simp] theorem State.setReg_freeCount (i : Sel) (v : RegVal) : (s.setReg i v).freeCount = s.freeCount := by unfold State.setReg; split <;> rfl

@[simp] theorem State.byProduct_pc (d : Sel) (v : RegVal) : (s.byProduct d v).pc = s.pc := by unfold State.byProduct; split <;> rfl
@[simp] theorem State.residueResult_pc (d : Sel) (v : Word) (k : DType) : (s.residueResult d v k).pc = s.pc := by simp [State.residueResult]
@[simp] theorem State.byProduct_save (d : Sel) (v : RegVal) : (s.byProduct d v).save = s.save := by unfold State.byProduct; split <;> rfl
@[simp] theorem State.residueResult_save (d : Sel) (v : Word) (k : DType) : (s.residueResult d v k).save = s.save := by simp [State.residueResult]
@[simp] theorem State.byProduct_mem (d : Sel) (v : RegVal) : (s.byProduct d v).mem = s.mem := by unfold State.byProduct; split <;> rfl
@[simp] theorem State.residueResult_mem (d : Sel) (v : Word) (k : DType) : (s.residueResult d v k).mem = s.mem := by simp [State.residueResult]
@[simp] theorem State.byProduct_inputs (d : Sel) (v : RegVal) : (s.byProduct d v).inputs = s.inputs := by unfold State.byProduct; split <;> rfl
@[simp] theorem State.residueResult_inputs (d : Sel) (v : Word) (k : DType) : (s.residueResult d v k).inputs = s.inputs := by simp [State.residueResult]
@[simp] theorem State.byProduct_events (d : Sel) (v : RegVal) : (s.byProduct d v).events = s.events := by unfold State.byProduct; split <;> rfl
@[simp] theorem State.residueResult_events (d : Sel) (v : Word) (k : DType) : (s.residueResult d v k).events = s.events := by simp [State.residueResult]
@[simp] theorem State.byProduct_freeCount (d : Sel) (v : RegVal) : (s.byProduct d v).freeCount = s.freeCount := by unfold State.byProduct; split <;> rfl
@[simp] theorem State.residueResult_freeCount (d : Sel) (v : Word) (k : DType) : (s.residueResult d v k).freeCount = s.freeCount := by simp [State.residueResult]

@[simp] theorem State.portOut_regs (n : BitVec 5) (v : Word) : (s.portOut n v).regs = s.regs := by unfold State.portOut; split <;> rfl
@[simp] theorem State.portOut_pc (n : BitVec 5) (v : Word) : (s.portOut n v).pc = s.pc := by unfold State.portOut; split <;> rfl
@[simp] theorem State.portOut_mem (n : BitVec 5) (v : Word) : (s.portOut n v).mem = s.mem := by unfold State.portOut; split <;> rfl
@[simp] theorem State.portOut_inputs (n : BitVec 5) (v : Word) : (s.portOut n v).inputs = s.inputs := by unfold State.portOut; split <;> rfl
@[simp] theorem State.portOut_freeCount (n : BitVec 5) (v : Word) : (s.portOut n v).freeCount = s.freeCount := by unfold State.portOut; split <;> rfl

@[simp] theorem State.portIn_regs (n : BitVec 5) : ((s.portIn n).2).regs = s.regs := by unfold State.portIn; (repeat' split) <;> rfl
@[simp] theorem State.portIn_pc (n : BitVec 5) : ((s.portIn n).2).pc = s.pc := by unfold State.portIn; (repeat' split) <;> rfl
@[simp] theorem State.portIn_save (n : BitVec 5) : ((s.portIn n).2).save = s.save := by unfold State.portIn; (repeat' split) <;> rfl
@[simp] theorem State.portIn_mem (n : BitVec 5) : ((s.portIn n).2).mem = s.mem := by unfold State.portIn; (repeat' split) <;> rfl

@[simp] theorem State.toRegister_regs (v : Word) (k : DType) : ((s.toRegister v k).2).regs = s.regs := by unfold State.toRegister; split <;> rfl
@[simp] theorem State.toMemory_regs (r : RegVal) : ((s.toMemory r).2).regs = s.regs := by unfold State.toMemory; split <;> rfl
@[simp] theorem State.toRegister_pc (v : Word) (k : DType) : ((s.toRegister v k).2).pc = s.pc := by unfold State.toRegister; split <;> rfl
@[simp] theorem State.toMemory_pc (r : RegVal) : ((s.toMemory r).2).pc = s.pc := by unfold State.toMemory; split <;> rfl
@[simp] theorem State.toRegister_save (v : Word) (k : DType) : ((s.toRegister v k).2).save = s.save := by unfold State.toRegister; split <;> rfl
@[simp] theorem State.toMemory_save (r : RegVal) : ((s.toMemory r).2).save = s.save := by unfold State.toMemory; split <;> rfl
@[simp] theorem State.toRegister_mem (v : Word) (k : DType) : ((s.toRegister v k).2).mem = s.mem := by unfold State.toRegister; split <;> rfl
@[simp] theorem State.toMemory_mem (r : RegVal) : ((s.toMemory r).2).mem = s.mem := by unfold State.toMemory; split <;> rfl
@[simp] theorem State.toRegister_inputs (v : Word) (k : DType) : ((s.toRegister v k).2).inputs = s.inputs := by unfold State.toRegister; split <;> rfl
@[simp] theorem State.toMemory_inputs (r : RegVal) : ((s.toMemory r).2).inputs = s.inputs := by unfold State.toMemory; split <;> rfl
@[simp] theorem State.toRegister_events (v : Word) (k : DType) : ((s.toRegister v k).2).events = s.events := by unfold State.toRegister; split <;> rfl
@[simp] theorem State.toMemory_events (r : RegVal) : ((s.toMemory r).2).events = s.events := by unfold State.toMemory; split <;> rfl

@[simp] theorem State.shifted_regs (r : RegVal) (n : BitVec 5) : ((s.shifted r n).2).regs = s.regs := by unfold State.shifted; split <;> rfl
@[simp] theorem State.shifted_pc (r : RegVal) (n : BitVec 5) : ((s.shifted r n).2).pc = s.pc := by unfold State.shifted; split <;> rfl
@[simp] theorem State.shifted_save (r : RegVal) (n : BitVec 5) : ((s.shifted r n).2).save = s.save := by unfold State.shifted; split <;> rfl
@[simp] theorem State.shifted_mem (r : RegVal) (n : BitVec 5) : ((s.shifted r n).2).mem = s.mem := by unfold State.shifted; split <;> rfl
@[simp] theorem State.shifted_inputs (r : RegVal) (n : BitVec 5) : ((s.shifted r n).2).inputs = s.inputs := by unfold State.shifted; split <;> rfl
@[simp] theorem State.shifted_events (r : RegVal) (n : BitVec 5) : ((s.shifted r n).2).events = s.events := by unfold State.shifted; split <;> rfl

end Sys2Proof.Machine
end

