-- ==== Sys2Proof/Laws/Memory.lean ====
section
/-! SUPPORT. The laws of memory: read after write, and every memory operation keeps the canonical form. -/

namespace Sys2Proof.Machine

/-- A byte reads as what was last written there, and a write leaves every other byte alone. -/
theorem Memory.read_write (m : Memory) (a b : Nat) (v : Byte) :
    Memory.read (Memory.write m a v) b = if b = a then some v else Memory.read m b := by
  induction m with
  | nil => simp [Memory.write, Memory.read]
  | cons c m ih =>
    obtain ⟨x, w⟩ := c
    unfold Memory.write
    split
    · by_cases e : b = a <;> simp [Memory.read, e]
    · split
      next h1 h2 =>
        subst h2
        by_cases e : b = a <;> simp [Memory.read, e]
      next h1 h2 =>
        by_cases e : b = x
        · have : b ≠ a := fun q => h2 (q.symm.trans e)
          subst e
          simp [Memory.read, this]
        · simp [Memory.read, e, ih]

/-- The bytes after the write of a half-word: its two bytes, and every other byte as before. -/
theorem Memory.read_writeHalf (m : Memory) (a v : Word) (b : Nat) :
    Memory.read (Memory.writeHalf m a v) b =
      if b = byteAddr a + 1 then some (v.extractLsb' 8 8)
      else if b = byteAddr a then some (v.extractLsb' 0 8)
      else Memory.read m b := by
  simp [Memory.writeHalf, Memory.read_write]

theorem byteAddr_inj {a b : Word} (h : byteAddr a = byteAddr b) : a = b := by
  apply BitVec.eq_of_toNat_eq
  simp only [byteAddr] at h
  omega

theorem halves_append (v : Word) : v.extractLsb' 8 8 ++ v.extractLsb' 0 8 = v := by
  ext i hi
  simp only [BitVec.getElem_append, BitVec.getElem_extractLsb']
  split
  · simp [BitVec.getLsbD_eq_getElem hi]
  next h =>
    have : 8 + (i - 8) = i := by omega
    rw [this, BitVec.getLsbD_eq_getElem hi]

/-- A half-word reads as what was last written there, and a write leaves every other half-word alone. -/
theorem Memory.readHalf_writeHalf (m : Memory) (a b v : Word) :
    Memory.readHalf (Memory.writeHalf m a v) b = if b = a then some v else Memory.readHalf m b := by
  unfold Memory.readHalf
  simp only [Memory.read_writeHalf]
  by_cases e : b = a
  · subst e
    simp [halves_append]
  · have h : byteAddr b ≠ byteAddr a := fun q => e (byteAddr_inj q)
    have h1 : byteAddr b ≠ byteAddr a + 1 := by simp only [byteAddr]; omega
    have h2 : byteAddr b + 1 ≠ byteAddr a := by simp only [byteAddr]; omega
    have h3 : byteAddr b + 1 ≠ byteAddr a + 1 := by omega
    simp [e, h, h1, h2]

/-- Equal bytes give equal half-words. -/
theorem Memory.readHalf_congr {m m' : Memory} (h : ∀ b, Memory.read m b = Memory.read m' b) (a : Word) :
    Memory.readHalf m a = Memory.readHalf m' a := by
  simp [Memory.readHalf, h]

theorem Memory.risingFrom_write (m : Memory) (lo : Option Nat) (a : Nat) (v : Byte)
    (hm : Memory.risingFrom lo m = true) (hlo : ∀ b, lo = some b → b < a) (ha : a < byteCount) :
    Memory.risingFrom lo (Memory.write m a v) = true := by
  induction m generalizing lo with
  | nil =>
    cases lo with
    | none => simpa [Memory.write, Memory.risingFrom] using ha
    | some b => simpa [Memory.write, Memory.risingFrom] using ⟨hlo b rfl, ha⟩
  | cons c m ih =>
    obtain ⟨x, w⟩ := c
    simp only [Memory.risingFrom, Bool.and_eq_true, decide_eq_true_eq] at hm
    obtain ⟨⟨h0, h1⟩, h2⟩ := hm
    unfold Memory.write
    split
    next hlt =>
      cases lo with
      | none => simp [Memory.risingFrom, hlt, h1, h2, ha]
      | some b => simp [Memory.risingFrom, hlt, h1, h2, ha, hlo b rfl]
    next hlt =>
      split
      next he =>
        subst he
        simp only [Memory.risingFrom, Bool.and_eq_true, decide_eq_true_eq]
        exact ⟨⟨h0, h1⟩, h2⟩
      next he =>
        simp only [Memory.risingFrom, Bool.and_eq_true, decide_eq_true_eq]
        refine ⟨⟨h0, h1⟩, ih (some x) h2 ?_⟩
        intro b hb
        cases hb
        omega

/-- The write of a byte keeps the canonical form. -/
theorem Memory.wf_write {m : Memory} (hm : m.wf = true) {a : Nat} (ha : a < byteCount) (v : Byte) :
    (Memory.write m a v).wf = true :=
  Memory.risingFrom_write m none a v hm (by simp) ha

/-- The write of a half-word keeps the canonical form. -/
theorem Memory.wf_writeHalf {m : Memory} (hm : m.wf = true) (a v : Word) : (Memory.writeHalf m a v).wf = true := by
  have : a.toNat < 65536 := a.isLt
  exact Memory.wf_write (Memory.wf_write hm (by simp only [byteAddr, byteCount]; omega) _)
    (by simp only [byteAddr, byteCount]; omega) _

/-- Everything a store does: it needs memory at the address, and writes the half-word there. -/
theorem State.memWrite_ok {s t : State} {a v : Word} (h : s.memWrite a v = .ok t) :
    Params.memPresent a = true ∧ t = { s with mem := Memory.writeHalf s.mem a v } := by
  unfold State.memWrite at h
  split at h
  next hp => exact ⟨hp, by simpa using h.symm⟩
  next => cases h

/-- A store at an address with memory completes. -/
theorem State.memWrite_present {s : State} {a : Word} (v : Word) (h : Params.memPresent a = true) :
    s.memWrite a v = .ok { s with mem := Memory.writeHalf s.mem a v } := by simp [State.memWrite, h]

/-- Everything a load does. -/
theorem State.memRead_ok {s : State} {a v : Word} :
    s.memRead a = .ok v ↔ Params.memPresent a = true ∧ Memory.readHalf s.mem a = some v := by
  unfold State.memRead
  split
  next hp => split <;> simp_all
  next hp => simp [hp]

/-- Without `HARVARD` instructions and data are one memory (20_memory.md R50). -/
@[simp] theorem State.instRead_eq (s : State) (a : Word) : s.instRead a = s.memRead a := rfl

/-- A load depends on the memory alone. -/
theorem State.memRead_congr {s t : State} (h : ∀ b, Memory.read t.mem b = Memory.read s.mem b) (a : Word) :
    t.memRead a = s.memRead a := by
  simp [State.memRead, Memory.readHalf_congr h]

/-- The memory after a store is canonical. -/
theorem State.memWrite_wf {s t : State} {a v : Word} (hs : s.mem.wf = true) (h : s.memWrite a v = .ok t) :
    t.mem.wf = true := by
  obtain ⟨-, rfl⟩ := State.memWrite_ok h
  exact Memory.wf_writeHalf hs a v


end Sys2Proof.Machine
end

