-- ==== Sys2Proof/Laws/Decode.lean ====
section
/-! SUPPORT. The fields of a half-word, and what decoding and fetching do on a short and on a long form. -/

namespace Sys2Proof

/-- The op-code of an assembled half-word. -/
theorem opOf_assemble (f d : BitVec 5) (op : BitVec 6) : opOf (assemble f d op) = op := by
  apply BitVec.eq_of_getLsbD_eq
  intro i hi
  simp only [opOf, assemble, BitVec.getLsbD_extractLsb', BitVec.getLsbD_append, hi]
  simp [show i < 6 from hi]

/-- The D field of an assembled half-word. -/
theorem dOf_assemble (f d : BitVec 5) (op : BitVec 6) : dOf (assemble f d op) = d := by
  apply BitVec.eq_of_getLsbD_eq
  intro i hi
  simp only [dOf, assemble, BitVec.getLsbD_extractLsb', BitVec.getLsbD_append]
  simp [hi]

/-- Bits 15:11 of an assembled half-word. -/
theorem fOf_assemble (f d : BitVec 5) (op : BitVec 6) : fOf (assemble f d op) = f := by
  apply BitVec.eq_of_getLsbD_eq
  intro i hi
  simp only [fOf, assemble, BitVec.getLsbD_extractLsb', BitVec.getLsbD_append]
  have h1 : ¬(11 + i < 6) := by omega
  have h2 : ¬(11 + i - 6 < 5) := by omega
  simp [hi, h1, h2, show 11 + i - 6 - 5 = i by omega]

/-- A half-word is assembled from its three fields. -/
theorem assemble_fields (w : Word) : assemble (fOf w) (dOf w) (opOf w) = w := by
  apply BitVec.eq_of_getLsbD_eq
  intro i hi
  simp only [assemble, opOf, dOf, fOf, BitVec.getLsbD_append, BitVec.getLsbD_extractLsb']
  by_cases h1 : i < 6
  · simp [h1]
  · by_cases h2 : i - 6 < 5
    · simp [h1, h2, show 6 + (i - 6) = i by omega]
    · simp [h1, h2, show 11 + (i - 6 - 5) = i by omega, show i - 6 - 5 < 5 by omega]

/-- The bytes of a half-word make it again. -/
theorem wordOfBytes_bytesOfWord (w : Word) : wordOfBytes (w.extractLsb' 0 8) (w.extractLsb' 8 8) = w :=
  Machine.halves_append w

/-- Decoding where the first half-word is not a long form. -/
theorem decode_short {w : Word} (h : isLong w = false) (rest : List Byte) :
    decode (bytesOfWord w ++ rest) = .ok (decodeHalfwords w 0#16) := by
  simp [decode, bytesOfWord, wordOfBytes_bytesOfWord, h]

/-- Decoding where the first half-word is a long form. -/
theorem decode_long {w : Word} (h : isLong w = true) (N : Word) (rest : List Byte) :
    decode (bytesOfWord w ++ (bytesOfWord N ++ rest)) = .ok (decodeHalfwords w N) := by
  simp [decode, bytesOfWord, wordOfBytes_bytesOfWord, h]

/-- Fetching where the first half-word is not a long form. -/
theorem Machine.State.fetch_short {s : Machine.State} {w : Word} (hw : s.memRead s.pc = .ok w) (h : isLong w = false) :
    s.fetch = .ok (decodeHalfwords w 0#16) := by simp [Machine.State.fetch, hw, h]

/-- Fetching where the first half-word is a long form. -/
theorem Machine.State.fetch_long {s : Machine.State} {w N : Word} (hw : s.memRead s.pc = .ok w) (h : isLong w = true)
    (hN : s.memRead (s.pc + 1#16) = .ok N) : s.fetch = .ok (decodeHalfwords w N) := by
  simp [Machine.State.fetch, hw, h, hN]

/-- The long forms in terms of the fields (R97). -/
theorem isLong_assemble (f d : BitVec 5) (op : BitVec 6) :
    isLong (assemble f d op) = (op.getLsbD 0 && !registerForm op && f == escape) := by
  have h : ∀ w : Word, w.getLsbD 0 = (opOf w).getLsbD 0 := by intro w; simp [opOf]
  simp only [isLong, h, opOf_assemble, fOf_assemble]

end Sys2Proof
end

