-- ==== Sys2Proof/Laws/Operands.lean ====
section
/-! SUPPORT. The alignment targets as arithmetic, and the field operations bit by bit. -/

namespace Sys2Proof.Machine

/-- Clearing the low `k` bits rounds down to a multiple of `2 ^ k`. -/
theorem clearLow_toNat (x : Word) (k : Nat) :
    (x &&& ~~~BitVec.ofNat 16 (2 ^ k - 1)).toNat = x.toNat / 2 ^ k * 2 ^ k := by
  have : x &&& ~~~BitVec.ofNat 16 (2 ^ k - 1) = (x >>> k) <<< k := by
    apply BitVec.eq_of_getLsbD_eq
    intro i hi
    simp only [BitVec.getLsbD_and, BitVec.getLsbD_not, BitVec.getLsbD_ofNat, Nat.testBit_two_pow_sub_one,
      BitVec.getLsbD_shiftLeft, BitVec.getLsbD_ushiftRight, hi]
    by_cases h : i < k
    · simp [h]
    · simp [h, show k + (i - k) = i by omega]
  rw [this, BitVec.toNat_shiftLeft, BitVec.toNat_ushiftRight, Nat.shiftRight_eq_div_pow, Nat.shiftLeft_eq]
  exact Nat.mod_eq_of_lt (lt_of_le_of_lt (Nat.div_mul_le_self _ _) x.isLt)

/-- The bits of the mask of a field. -/
theorem fieldMask_bit (W M b : Nat) (hb : b < 16) :
    (fieldMask W M).getLsbD b = (decide (M ≤ b) && decide (b < M + W)) := by
  simp only [fieldMask, BitVec.getLsbD_ofNat, hb, decide_true, Bool.true_and]
  rw [Nat.mul_comm, Nat.testBit_two_pow_mul, Nat.testBit_two_pow_sub_one]
  by_cases h : M ≤ b
  · simp [h]; omega
  · simp [h]

/-- The bits of a field taken out. -/
theorem fieldGet_bit (x : Word) (W M b : Nat) (hb : b < 16) :
    (fieldGet x W M).getLsbD b = (decide (b < W) && x.getLsbD (M + b)) := by
  rw [fieldGet, BitVec.getLsbD_and, fieldMask_bit _ _ _ hb]
  simp [Bool.and_comm]

/-- The width of a field is 1 to 16. -/
theorem fieldWidth_range (N : Word) : 0 < fieldWidth N ∧ fieldWidth N ≤ 16 := by
  unfold fieldWidth
  split
  · omega
  next h =>
    have : (N.extractLsb' 6 4).toNat ≠ 0 := fun e => h (BitVec.eq_of_toNat_eq (by simpa using e))
    have := (N.extractLsb' 6 4).isLt
    omega

end Sys2Proof.Machine
end

