-- ==== Sys2Proof/Laws/Regs.lean ====
section
/-! SUPPORT. Reading a register after each update: what the register file holds (10_state.md R26, R28, R30, R31). -/

namespace Sys2Proof.Machine

theorem sel_lt_of_ne_pc {i : Sel} (h : i ≠ pcSel) : i.toNat < 31 := by
  have h1 : i.toNat < 32 := i.isLt
  have h2 : i.toNat ≠ 31 := fun e => h (BitVec.eq_of_toNat_eq (by simpa using e))
  omega

theorem sel_toNat_inj {i j : Sel} (h : i.toNat = j.toNat) : i = j := BitVec.eq_of_toNat_eq h

/-- Selector 31 reads as the address of the executing instruction, of type U (R28, R31). -/
@[simp] theorem State.reg_pc (s : State) : s.reg pcSel = ⟨s.pc, .u, 0#2⟩ := rfl

/-- With `PC_BASE = current` the length of the reading instruction does not matter (R28). -/
@[simp] theorem State.pcRead_eq (s : State) (len : Nat) : s.pcRead len = s.pc := rfl

/-- With `PC_BASE = current` every instruction reads the same operand (R28). -/
theorem State.reg_len (s : State) (i : Sel) (len : Nat) : s.reg i len = s.reg i := rfl

/-- A register other than the PC is a cell of the register file. -/
theorem State.reg_eq_of_regs {s t : State} (h : t.regs = s.regs) {j : Sel} (hj : j ≠ pcSel) : t.reg j = s.reg j := by
  have := sel_lt_of_ne_pc hj
  simp [State.reg, this, h]

theorem State.regs_eq_of_reg {s t : State} (h : ∀ j, j ≠ pcSel → t.reg j = s.reg j) : t.regs = s.regs := by
  ext i hi : 1
  have hj : (BitVec.ofNat 5 i).toNat = i := by simp; omega
  have hne : BitVec.ofNat 5 i ≠ pcSel := by
    intro e
    have := congrArg BitVec.toNat e
    simp at this
    omega
  have := h (BitVec.ofNat 5 i) hne
  simpa [State.reg, hj, hi] using this

/-- Everything a write of a register does to the registers. -/
theorem State.reg_setReg (s : State) (i j : Sel) (v : RegVal) (hj : j ≠ pcSel) :
    (s.setReg i v).reg j = if j = i then v else s.reg j := by
  have hj' := sel_lt_of_ne_pc hj
  unfold State.setReg
  split
  next hi =>
    by_cases e : j = i
    · subst e; simp [State.reg, hj']
    · have : i.toNat ≠ j.toNat := fun q => e (sel_toNat_inj q.symm)
      simp [State.reg, hj', e, this]
  next hi =>
    have e : j ≠ i := fun q => hi (q ▸ hj')
    simp [State.reg, hj', e]

/-- Everything a write of a register does to the PC: selector 31 is a control transfer (R30). -/
theorem State.setReg_pc (s : State) (i : Sel) (v : RegVal) :
    (s.setReg i v).pc = if i = pcSel then v.data else s.pc := by
  by_cases e : i = pcSel
  · subst e; rfl
  · have := sel_lt_of_ne_pc e
    simp [State.setReg, this, e]

/-- Everything the write of a by-product does to the registers: dropped when D is the residue register (R26). -/
theorem State.reg_byProduct (s : State) (d j : Sel) (v : RegVal) (hj : j ≠ pcSel) :
    (s.byProduct d v).reg j = if d ≠ resSel ∧ j = resSel then v else s.reg j := by
  unfold State.byProduct
  split
  next h => simp [h]
  next h => simp [h, State.reg_setReg _ _ _ _ hj]

theorem State.reg_advance (s : State) (n : Nat) {j : Sel} (hj : j ≠ pcSel) : (s.advance n).reg j = s.reg j :=
  State.reg_eq_of_regs (s := s) (t := s.advance n) rfl hj

theorem State.reg_jump (s : State) (w : Word) {j : Sel} (hj : j ≠ pcSel) : (s.jump w).reg j = s.reg j :=
  State.reg_eq_of_regs (s := s) (t := s.jump w) rfl hj

theorem State.reg_draw (s : State) (n : Nat) (j : Sel) : (s.draw n).reg j = s.reg j := rfl

theorem State.reg_takeTrap (s : State) (k : TrapKind) {j : Sel} (hj : j ≠ pcSel) : (s.takeTrap k).reg j = s.reg j :=
  State.reg_eq_of_regs (s := s) (t := s.takeTrap k) rfl hj

end Sys2Proof.Machine
end

