-- ==== Sys2Proof/Laws/Ops.lean ====
section
/-! SUPPORT. For each shared operation, once, everything it can do, in the vocabulary of Safety.lean: the proofs about
instructions cite these and unfold no operation. -/

namespace Sys2Proof.Machine

open Safety

/-- A state agrees with itself outside the registers. -/
theorem Safety.RestSame.refl (s : State) : RestSame s s := ⟨rfl, fun _ => rfl, rfl, rfl⟩

/-- Everything `draw` leaves. -/
theorem State.draw_rest (s : State) (n : Nat) : RestSame s (s.draw n) := ⟨rfl, fun _ => rfl, rfl, rfl⟩

/-- Everything the write of D does, after an update that leaves registers, PC and the rest alone. -/
theorem State.wrote_setReg {s u : State} (hr : u.regs = s.regs) (hp : u.pc = s.pc) (h : RestSame s u) (len : Nat)
    (d : Sel) (v : RegVal) : Wrote s ((u.advance len).setReg d v) len d v none where
  regs j hj := by
    rw [State.reg_setReg _ _ _ _ hj, State.reg_eq_of_regs (s := s) (by simpa using hr) hj]
    by_cases e : j = resSel <;> simp [e]
  pc := by simp [State.setReg_pc, hp]
  rest := ⟨by simpa using h.save, by simpa using h.mem, by simpa using h.inputs, by simpa using h.events⟩

/-- Everything the write of D and of a by-product does (00_scope.md R12, 10_state.md R26). -/
theorem State.wrote_byProduct {s u : State} (hr : u.regs = s.regs) (hp : u.pc = s.pc) (h : RestSame s u) (len : Nat)
    (d : Sel) (v w : RegVal) : Wrote s (((u.advance len).setReg d v).byProduct d w) len d v (some w) where
  regs j hj := by
    rw [State.reg_byProduct _ _ _ _ hj, State.reg_setReg _ _ _ _ hj,
      State.reg_eq_of_regs (s := s) (by simpa using hr) hj]
    by_cases e : j = d
    · subst e; by_cases f : j = resSel <;> simp [f]
    · by_cases f : j = resSel
      · subst f; simp [e, Ne.symm e]
      · simp [e, f]
  pc := by simp [State.setReg_pc, hp]
  rest := ⟨by simpa using h.save, by simpa using h.mem, by simpa using h.inputs, by simpa using h.events⟩

/-- Everything a transfer of control does. -/
theorem State.jumped_jump (s : State) (w : Word) : Jumped s (s.jump w) w :=
  ⟨rfl, fun _ hj => State.reg_jump s w hj, ⟨rfl, fun _ => rfl, rfl, rfl⟩⟩

/-- Everything going on to the next instruction does. -/
theorem State.jumped_advance (s : State) (n : Nat) : Jumped s (s.advance n) (s.pc + BitVec.ofNat 16 n) :=
  State.jumped_jump s _

/-- Everything the entry of a trap does (60_exceptions.md R266). -/
theorem State.trapped_takeTrap (s : State) (k : TrapKind) : Trapped s (s.takeTrap k) (Params.trapLocation k) :=
  ⟨rfl, rfl, fun _ hj => State.reg_takeTrap s k hj, fun _ => rfl, rfl, rfl⟩

/-- What an instruction leaves that may not have D = 31, from what its body leaves for every other D. -/
theorem illegalPc_next {d : Sel} {s : State} {body : Result} {P : State → Prop}
    (h : d ≠ pcSel → ∃ t, body = .next t ∧ P t) : ∃ t, illegalPc d s body = .next t ∧ UnlessPc d s t (P t) := by
  unfold illegalPc UnlessPc
  by_cases e : d = pcSel
  · simp only [e, if_true]
    exact ⟨_, rfl, State.trapped_takeTrap s .illegal⟩
  · simpa only [e, if_false] using h e

/-- Everything an instruction that may not have D = 31 can do. -/
theorem illegalPc_eq {d : Sel} {s t : State} {body : Result} (h : illegalPc d s body = .next t) :
    (d = pcSel ∧ t = s.takeTrap .illegal) ∨ (d ≠ pcSel ∧ body = .next t) := by
  unfold illegalPc at h
  split at h
  next e => exact .inl ⟨e, by simpa using h.symm⟩
  next e => exact .inr ⟨e, h⟩

/-- Everything a bitwise instruction does. -/
theorem State.setData_next (s : State) (len : Nat) (d : Sel) (v : Word) :
    ∃ t, s.setData len d v = .next t ∧ Wrote s t len d ⟨v, (s.reg d).ty, (s.reg d).exp⟩ none :=
  ⟨_, rfl, State.wrote_setReg rfl rfl (.refl s) len d _⟩

/-- Everything the main result of CMP, EXTRCT, TAG and the fLD functions does. -/
theorem State.setResidue_next {s u : State} (hr : u.regs = s.regs) (hp : u.pc = s.pc) (h : RestSame s u) (len : Nat)
    (v : RegVal) : ∃ t, u.setResidue len v = .next t ∧ Wrote s t len resSel v none :=
  ⟨_, rfl, State.wrote_setReg hr hp h len resSel v⟩

/-- Everything an arithmetic operation on a float D does. -/
theorem State.floatResult_next (s : State) (len : Nat) (d : Sel) (k : DType) :
    ∃ t, s.floatResult len d k = .next t ∧ Wrote s t len d (s.freeReg 0 k) (some ⟨s.freeData 1, k, 0#2⟩) :=
  ⟨_, rfl, State.wrote_byProduct (s := s) (u := s.draw 2) rfl rfl (s.draw_rest 2) len d _ _⟩

/-- Everything an arithmetic operation on a D of type U does. -/
theorem State.arith_u {s : State} {d : Sel} (h : (s.reg d).ty = .u) (op : ArithOp) (len : Nat) (a b : Word) :
    ∃ t, s.arith op len d a b = .next t ∧
      Wrote s t len d ⟨(arithU op a b).1, .u, (s.reg d).exp⟩ (some ⟨(arithU op a b).2, .u, 0#2⟩) := by
  unfold State.arith
  simp only [h]
  exact ⟨_, rfl, State.wrote_byProduct rfl rfl (.refl s) len d _ _⟩

/-- Everything an arithmetic operation on a D of type S does. -/
theorem State.arith_s {s : State} {d : Sel} (h : (s.reg d).ty = .s) (op : ArithOp) (len : Nat) (a b : Word) :
    ∃ t, s.arith op len d a b = .next t ∧
      Wrote s t len d ⟨(arithS op a b).1, .s, (s.reg d).exp⟩ (some ⟨(arithS op a b).2, .s, 0#2⟩) := by
  unfold State.arith
  simp only [h]
  exact ⟨_, rfl, State.wrote_byProduct rfl rfl (.refl s) len d _ _⟩

/-- Everything an arithmetic operation on a D of a float type does. -/
theorem State.arith_float {s : State} {d : Sel} (h : (s.reg d).ty.isFloat = true) (op : ArithOp) (len : Nat)
    (a b : Word) : ∃ t, s.arith op len d a b = .next t ∧
      Wrote s t len d (s.freeReg 0 (s.reg d).ty) (some ⟨s.freeData 1, (s.reg d).ty, 0#2⟩) := by
  unfold State.arith
  cases e : (s.reg d).ty <;> simp only [e, DType.isFloat, Bool.false_eq_true] at h ⊢ <;>
    exact State.floatResult_next s len d _

/-- Whatever the types, an arithmetic instruction writes D and the residue register and nothing else. -/
theorem State.arith_next (s : State) (op : ArithOp) (len : Nat) (d : Sel) (a b : Word) :
    ∃ t v w, s.arith op len d a b = .next t ∧ Wrote s t len d v (some w) := by
  cases e : (s.reg d).ty
  · obtain ⟨t, h, h'⟩ := State.arith_u e op len a b; exact ⟨t, _, _, h, h'⟩
  · obtain ⟨t, h, h'⟩ := State.arith_s e op len a b; exact ⟨t, _, _, h, h'⟩
  · obtain ⟨t, h, h'⟩ := State.arith_float (s := s) (d := d) (by simp [e, DType.isFloat]) op len a b; exact ⟨t, _, _, h, h'⟩
  · obtain ⟨t, h, h'⟩ := State.arith_float (s := s) (d := d) (by simp [e, DType.isFloat]) op len a b; exact ⟨t, _, _, h, h'⟩

/-- Operands of one type do not trap. -/
theorem State.sameType_same {s : State} {d r : Sel} (h : (s.reg d).ty = (s.reg r).ty) (body : Result) :
    s.sameType d r body = body := by simp [State.sameType, h]

/-- Operands of different types take the Undefined-instruction trap (60_exceptions.md R264). -/
theorem State.sameType_differ {s : State} {d r : Sel} (h : (s.reg d).ty ≠ (s.reg r).ty) (body : Result) :
    s.sameType d r body = .next (s.takeTrap .undefined) := by simp [State.sameType, h, Params.mismatchTrap]

/-- Everything a conditional branch does. -/
theorem State.branchIf_next (s : State) (len : Nat) (d : Sel) (test : Word → Bool) (target : Word) :
    ∃ t, s.branchIf len d test target = .next t ∧ UnlessPc d s t
      (Jumped s t (if test (s.reg d).data then target else s.pc + BitVec.ofNat 16 len)) := by
  refine illegalPc_next fun _ => ⟨_, rfl, ?_⟩
  split
  · exact State.jumped_jump s target
  · exact State.jumped_advance s len

/-- Everything a subroutine call does. -/
theorem State.call_next (s : State) (len : Nat) (d : Sel) (target : Word) :
    ∃ t, s.call len d target = .next t ∧ UnlessPc d s t
      (t.pc = target ∧ t.reg d = ⟨s.pc + BitVec.ofNat 16 len, .u, 0#2⟩ ∧
        (∀ j, j ≠ pcSel → j ≠ d → t.reg j = s.reg j) ∧ RestSame s t) := by
  refine illegalPc_next fun hd => ⟨_, rfl, rfl, ?_, fun j hj hjd => ?_, ?_⟩
  · rw [State.reg_jump _ _ hd, State.reg_setReg _ _ _ _ hd]; simp
  · rw [State.reg_jump _ _ hj, State.reg_setReg _ _ _ _ hj]; simp [hjd]
  · exact ⟨by simp, by simp, by simp, by simp⟩

/-- Everything LDIU and LDIS do. -/
theorem State.loadImm_next (s : State) (len : Nat) (d : Sel) (I : Word) (k : DType) :
    ∃ t, s.loadImm len d I k = .next t ∧ Wrote s t len d ⟨I, k, 0#2⟩ none :=
  ⟨_, rfl, State.wrote_setReg rfl rfl (.refl s) len d _⟩

/-- Everything LDIF and LDIF2 do. -/
theorem State.loadImmFloat_next (s : State) (len : Nat) (d : Sel) (k : DType) :
    ∃ t, s.loadImmFloat len d k = .next t ∧ Wrote s t len d (s.freeReg 0 k) none :=
  ⟨_, rfl, State.wrote_setReg (s := s) (u := s.draw 1) rfl rfl (s.draw_rest 1) len d _⟩

/-- Everything a relabelling does. -/
theorem State.setType_next (s : State) (d : Sel) (k : DType) :
    ∃ t, s.setType d k = .next t ∧ UnlessPc d s t (Wrote s t 1 d ⟨(s.reg d).data, k, (s.reg d).exp⟩ none) :=
  illegalPc_next fun _ => ⟨_, rfl, State.wrote_setReg rfl rfl (.refl s) 1 d _⟩

/-- An integer is the half-word itself. -/
theorem State.toRegister_integer {k : DType} (h : k.isFloat = false) (s : State) (v : Word) :
    s.toRegister v k = (v, s) := by simp [State.toRegister, h]

/-- Taking a half-word into register format changes no state of the machine. -/
theorem State.toRegister_rest (s : State) (v : Word) (k : DType) :
    RestSame s (s.toRegister v k).2 := ⟨by simp, by simp, by simp, by simp⟩

/-- An integer is shifted bit by bit. -/
theorem State.shifted_integer {r : RegVal} (h : r.ty.isFloat = false) (s : State) (n : BitVec 5) :
    s.shifted r n = (shiftData r.ty r.data n, s) := by simp [State.shifted, h]

/-- Everything SHFT does: D keeps its tags, the residue receives P3. -/
theorem execShft_next (s : State) (d : Sel) (n : BitVec 5) :
    ∃ t, execShft d n s = .next t ∧ UnlessPc d s t
      (Wrote s t 1 d ⟨(s.shifted (s.reg d) n).1, (s.reg d).ty, (s.reg d).exp⟩
        (some ⟨Config.shftResidue (s.reg d).data n (s.reg d).ty, (s.reg d).ty, 0#2⟩)) :=
  illegalPc_next fun _ => ⟨_, rfl, State.wrote_byProduct (by simp) (by simp) ⟨by simp, by simp, by simp, by simp⟩ 1 d _ _⟩

/-- Everything LD does when the half-word can be read: D keeps its tags. -/
theorem execLd_next {s : State} {d r : Sel} {x : Word} (h : s.memRead (s.reg r).data = .ok x) :
    ∃ t, execLd d r s = .next t ∧
      Wrote s t 1 d ⟨(s.toRegister x (s.reg d).ty).1, (s.reg d).ty, (s.reg d).exp⟩ none := by
  simp only [execLd, h]
  exact ⟨_, rfl, State.wrote_setReg (by simp) (by simp) (s.toRegister_rest x _) 1 d _⟩

/-- An integer register is stored as its data. -/
theorem State.toMemory_integer {r : RegVal} (h : r.ty.isFloat = false) (s : State) : s.toMemory r = (r.data, s) := by
  simp [State.toMemory, h]

/-- Everything a store of one half-word does to the machine. -/
theorem State.stored_memWrite {s u : State} {a : Word} (ha : Params.memPresent a = true) (hr : u.regs = s.regs)
    (hp : u.pc = s.pc) (h : RestSame s u) (hm : u.mem = s.mem) (len : Nat) (v : Word) :
    ∃ t, u.memWrite a v = .ok t ∧ Stored s (t.advance len) len a v := by
  refine ⟨_, State.memWrite_present v ha, ?_, ?_, ?_, ?_, ?_, ?_, ?_⟩
  · simp [Memory.readHalf_writeHalf]
  · intro b h1 h2
    simp [Memory.read_writeHalf, h1, h2, hm]
  · exact fun j hj => State.reg_eq_of_regs (s := s) (by simpa using hr) hj
  · simp [hp]
  · simpa using h.save
  · simpa using h.inputs
  · simpa using h.events

/-- Everything the fLD functions do when the half-word can be read. -/
theorem State.loadResidue_next {s : State} {d : Sel} {x : Word} (h : s.memRead (s.reg d).data = .ok x) (k : DType) :
    ∃ t, s.loadResidue d k = .next t ∧ UnlessPc d s t
      (Wrote s t 1 resSel ⟨(s.toRegister x k).1, k, if k.isFloat then (s.freeReg 0 k).exp else 0#2⟩ none) := by
  refine illegalPc_next fun _ => ?_
  simp only [h]
  exact State.setResidue_next (by simp) (by simp) (s.toRegister_rest x k) 1 _

/-- Everything the fLD functions do when it cannot. -/
theorem State.loadResidue_fault {s : State} {d : Sel} {e : Fault} (hd : d ≠ pcSel)
    (h : s.memRead (s.reg d).data = .error e) (k : DType) : s.loadResidue d k = .fault e := by
  simp only [State.loadResidue, illegalPc, hd, if_false, h]

/-- Everything a conversion does. -/
theorem State.convert_next (s : State) (d : Sel) (n : Nat) (v : RegVal) (k : DType) :
    ∃ t, s.convert d n v k = .next t ∧
      Wrote s t 1 d v (some (Config.cvtResidue (s.reg d).data (s.reg d).ty k)) :=
  ⟨_, rfl, State.wrote_byProduct (s := s) (u := s.draw n) rfl rfl (s.draw_rest n) 1 d _ _⟩

/-- Everything an operation whose value the spec leaves open does to D. -/
theorem State.freeD_next (s : State) (d : Sel) :
    ∃ t, s.freeD d = .next t ∧ Wrote s t 1 d ⟨s.freeData 0, (s.reg d).ty, (s.reg d).exp⟩ none :=
  ⟨_, rfl, State.wrote_setReg (s := s) (u := s.draw 1) rfl rfl (s.draw_rest 1) 1 d _⟩

/-- Everything CMPI does on an integer D. -/
theorem State.cmpImm_integer {s : State} {d : Sel} (h : (s.reg d).ty.isFloat = false) (len : Nat) (I : Word) :
    ∃ t, s.cmpImm len d I = .next t ∧ Wrote s t len resSel ⟨I - (s.reg d).data, (s.reg d).ty, 0#2⟩ none := by
  unfold State.cmpImm
  simp only [h, Bool.false_eq_true, if_false]
  exact State.setResidue_next rfl rfl (.refl s) len _

/-- Everything CMPI does on a float D. -/
theorem State.cmpImm_float {s : State} {d : Sel} (h : (s.reg d).ty.isFloat = true) (len : Nat) (I : Word) :
    ∃ t, s.cmpImm len d I = .next t ∧ Wrote s t len resSel ⟨s.freeData 0, (s.reg d).ty, 0#2⟩ none := by
  unfold State.cmpImm
  simp only [h, if_true]
  exact State.setResidue_next (s := s) (u := s.draw 1) rfl rfl (s.draw_rest 1) len _

/-- The environment's next value on a port is the first of its list. -/
theorem takeInput_first {n : BitVec 5} {v : Word} {before after : List (BitVec 5 × Word)} (h : ∀ p ∈ before, p.1 ≠ n) :
    takeInput n (before ++ (n, v) :: after) = some (v, before ++ after) := by
  induction before with
  | nil => simp [takeInput]
  | cons p l ih =>
    obtain ⟨q, w⟩ := p
    have hq : q ≠ n := h (q, w) (by simp)
    simp [takeInput, hq, ih fun p hp => h p (by simp [hp])]

/-- No value on a port where the list holds none. -/
theorem takeInput_none {n : BitVec 5} {l : List (BitVec 5 × Word)} (h : ∀ p ∈ l, p.1 ≠ n) : takeInput n l = none := by
  induction l with
  | nil => rfl
  | cons p l ih =>
    obtain ⟨q, w⟩ := p
    have hq : q ≠ n := h (q, w) (by simp)
    simp [takeInput, hq, ih fun p hp => h p (by simp [hp])]

/-- OUT to the save port. -/
theorem State.portOut_savePort (s : State) (v : Word) : s.portOut Params.savePort v = { s with save := v } := by
  simp [State.portOut]

/-- OUT to any other port. -/
theorem State.portOut_event {n : BitVec 5} (h : n ≠ Params.savePort) (s : State) (v : Word) :
    s.portOut n v = { s with events := .output n v :: s.events } := by simp [State.portOut, h]

/-- IN from the save port. -/
theorem State.portIn_savePort (s : State) : s.portIn Params.savePort = (s.save, s) := by
  have h : internalPort Params.savePort = true := by decide
  simp [State.portIn, h]

/-- Everything a read of an external port does where the environment holds a value for it. -/
theorem State.portIn_input {s : State} {n : BitVec 5} {v : Word} {rest : List (BitVec 5 × Word)} (hn : n.msb = false)
    (h : takeInput n s.inputs = some (v, rest)) :
    s.portIn n = (v, { s with inputs := rest, events := .input n v :: s.events }) := by
  simp [State.portIn, internalPort, hn, h]

/-- Everything a read of an external port does where the environment's list holds no value for it. -/
theorem State.portIn_open {s : State} {n : BitVec 5} (hn : n.msb = false) (h : takeInput n s.inputs = none) :
    s.portIn n = (Config.portValue n s.freeCount,
      { s with events := .input n (Config.portValue n s.freeCount) :: s.events, freeCount := s.freeCount + 1 }) := by
  simp [State.portIn, internalPort, hn, h]

/-- Everything a read of an undefined internal port does. -/
theorem State.portIn_internal {n : BitVec 5} (hn : n.msb = true) (h : n ≠ Params.savePort) (s : State) :
    s.portIn n = (Config.iregRead n s.freeCount, s.draw 1) := by
  simp [State.portIn, internalPort, hn, h]

end Sys2Proof.Machine
end

