-- ==== Sys2Proof/Laws/PerInstr.lean ====
section
/-! SUPPORT. The statements made for every instruction, one lemma per constructor. -/

namespace Sys2Proof.Laws

/-- The encoding of an instruction has as many half-words as its length says (30_encoding.md R97). -/
def EncodeLength.Statement (i : Instr) : Prop := (encode i).length = i.len

theorem EncodeLength.trap : EncodeLength.Statement .trap := rfl
theorem EncodeLength.bkpt : EncodeLength.Statement .bkpt := rfl
theorem EncodeLength.algnw : EncodeLength.Statement .algnw := rfl
theorem EncodeLength.algnc : EncodeLength.Statement .algnc := rfl
theorem EncodeLength.add (d s : Sel) : EncodeLength.Statement (.add d s) := rfl
theorem EncodeLength.sub (d s : Sel) : EncodeLength.Statement (.sub d s) := rfl
theorem EncodeLength.mul (d s : Sel) : EncodeLength.Statement (.mul d s) := rfl
theorem EncodeLength.div (d s : Sel) : EncodeLength.Statement (.div d s) := rfl
theorem EncodeLength.and (d s : Sel) : EncodeLength.Statement (.and d s) := rfl
theorem EncodeLength.or (d s : Sel) : EncodeLength.Statement (.or d s) := rfl
theorem EncodeLength.xor (d s : Sel) : EncodeLength.Statement (.xor d s) := rfl
theorem EncodeLength.cmp (d s : Sel) : EncodeLength.Statement (.cmp d s) := rfl
theorem EncodeLength.ld (d s : Sel) : EncodeLength.Statement (.ld d s) := rfl
theorem EncodeLength.st (d s : Sel) : EncodeLength.Statement (.st d s) := rfl
theorem EncodeLength.mov (d s : Sel) : EncodeLength.Statement (.mov d s) := rfl
theorem EncodeLength.inPort (d : Sel) (n : BitVec 5) : EncodeLength.Statement (.inPort d n) := rfl
theorem EncodeLength.ldt (d : Sel) (N : Word) : EncodeLength.Statement (.ldt d N) := rfl
theorem EncodeLength.outPort (d : Sel) (n : BitVec 5) : EncodeLength.Statement (.outPort d n) := rfl
theorem EncodeLength.stt (d : Sel) (N : Word) : EncodeLength.Statement (.stt d N) := rfl
theorem EncodeLength.bsrShort (d : Sel) (n : BitVec 5) : EncodeLength.Statement (.bsrShort d n) := rfl
theorem EncodeLength.bsrLong (d : Sel) (N : Word) : EncodeLength.Statement (.bsrLong d N) := rfl
theorem EncodeLength.brzShort (d : Sel) (n : BitVec 5) : EncodeLength.Statement (.brzShort d n) := rfl
theorem EncodeLength.brzLong (d : Sel) (N : Word) : EncodeLength.Statement (.brzLong d N) := rfl
theorem EncodeLength.brnzShort (d : Sel) (n : BitVec 5) : EncodeLength.Statement (.brnzShort d n) := rfl
theorem EncodeLength.brnzLong (d : Sel) (N : Word) : EncodeLength.Statement (.brnzLong d N) := rfl
theorem EncodeLength.brpShort (d : Sel) (n : BitVec 5) : EncodeLength.Statement (.brpShort d n) := rfl
theorem EncodeLength.brpLong (d : Sel) (N : Word) : EncodeLength.Statement (.brpLong d N) := rfl
theorem EncodeLength.brmShort (d : Sel) (n : BitVec 5) : EncodeLength.Statement (.brmShort d n) := rfl
theorem EncodeLength.brmLong (d : Sel) (N : Word) : EncodeLength.Statement (.brmLong d N) := rfl
theorem EncodeLength.shft (d : Sel) (n : BitVec 5) : EncodeLength.Statement (.shft d n) := rfl
theorem EncodeLength.extrct (d : Sel) (N : Word) : EncodeLength.Statement (.extrct d N) := rfl
theorem EncodeLength.insrt (d : Sel) (N : Word) : EncodeLength.Statement (.insrt d N) := rfl
theorem EncodeLength.ldiuShort (d : Sel) (n : BitVec 5) : EncodeLength.Statement (.ldiuShort d n) := rfl
theorem EncodeLength.ldiuLong (d : Sel) (N : Word) : EncodeLength.Statement (.ldiuLong d N) := rfl
theorem EncodeLength.ldisShort (d : Sel) (n : BitVec 5) : EncodeLength.Statement (.ldisShort d n) := rfl
theorem EncodeLength.ldisLong (d : Sel) (N : Word) : EncodeLength.Statement (.ldisLong d N) := rfl
theorem EncodeLength.ldifShort (d : Sel) (n : BitVec 5) : EncodeLength.Statement (.ldifShort d n) := rfl
theorem EncodeLength.ldifLong (d : Sel) (N : Word) : EncodeLength.Statement (.ldifLong d N) := rfl
theorem EncodeLength.ldif2Short (d : Sel) (n : BitVec 5) : EncodeLength.Statement (.ldif2Short d n) := rfl
theorem EncodeLength.ldif2Long (d : Sel) (N : Word) : EncodeLength.Statement (.ldif2Long d N) := rfl
theorem EncodeLength.addiShort (d : Sel) (n : BitVec 5) : EncodeLength.Statement (.addiShort d n) := rfl
theorem EncodeLength.addiLong (d : Sel) (N : Word) : EncodeLength.Statement (.addiLong d N) := rfl
theorem EncodeLength.subiShort (d : Sel) (n : BitVec 5) : EncodeLength.Statement (.subiShort d n) := rfl
theorem EncodeLength.subiLong (d : Sel) (N : Word) : EncodeLength.Statement (.subiLong d N) := rfl
theorem EncodeLength.muliShort (d : Sel) (n : BitVec 5) : EncodeLength.Statement (.muliShort d n) := rfl
theorem EncodeLength.muliLong (d : Sel) (N : Word) : EncodeLength.Statement (.muliLong d N) := rfl
theorem EncodeLength.diviShort (d : Sel) (n : BitVec 5) : EncodeLength.Statement (.diviShort d n) := rfl
theorem EncodeLength.diviLong (d : Sel) (N : Word) : EncodeLength.Statement (.diviLong d N) := rfl
theorem EncodeLength.andiShort (d : Sel) (n : BitVec 5) : EncodeLength.Statement (.andiShort d n) := rfl
theorem EncodeLength.andiLong (d : Sel) (N : Word) : EncodeLength.Statement (.andiLong d N) := rfl
theorem EncodeLength.oriShort (d : Sel) (n : BitVec 5) : EncodeLength.Statement (.oriShort d n) := rfl
theorem EncodeLength.oriLong (d : Sel) (N : Word) : EncodeLength.Statement (.oriLong d N) := rfl
theorem EncodeLength.xoriShort (d : Sel) (n : BitVec 5) : EncodeLength.Statement (.xoriShort d n) := rfl
theorem EncodeLength.xoriLong (d : Sel) (N : Word) : EncodeLength.Statement (.xoriLong d N) := rfl
theorem EncodeLength.cmpiShort (d : Sel) (n : BitVec 5) : EncodeLength.Statement (.cmpiShort d n) := rfl
theorem EncodeLength.cmpiLong (d : Sel) (N : Word) : EncodeLength.Statement (.cmpiLong d N) := rfl
theorem EncodeLength.setu (d : Sel) : EncodeLength.Statement (.setu d) := rfl
theorem EncodeLength.sets (d : Sel) : EncodeLength.Statement (.sets d) := rfl
theorem EncodeLength.setf (d : Sel) : EncodeLength.Statement (.setf d) := rfl
theorem EncodeLength.setf2 (d : Sel) : EncodeLength.Statement (.setf2 d) := rfl
theorem EncodeLength.abs (d : Sel) : EncodeLength.Statement (.abs d) := rfl
theorem EncodeLength.nabs (d : Sel) : EncodeLength.Statement (.nabs d) := rfl
theorem EncodeLength.tag (d : Sel) : EncodeLength.Statement (.tag d) := rfl
theorem EncodeLength.itag (d : Sel) : EncodeLength.Statement (.itag d) := rfl
theorem EncodeLength.fldu (d : Sel) : EncodeLength.Statement (.fldu d) := rfl
theorem EncodeLength.flds (d : Sel) : EncodeLength.Statement (.flds d) := rfl
theorem EncodeLength.fldf (d : Sel) : EncodeLength.Statement (.fldf d) := rfl
theorem EncodeLength.fldf2 (d : Sel) : EncodeLength.Statement (.fldf2 d) := rfl
theorem EncodeLength.fst (d : Sel) : EncodeLength.Statement (.fst d) := rfl
theorem EncodeLength.cvtu (d : Sel) : EncodeLength.Statement (.cvtu d) := rfl
theorem EncodeLength.cvts (d : Sel) : EncodeLength.Statement (.cvts d) := rfl
theorem EncodeLength.cvtf (d : Sel) : EncodeLength.Statement (.cvtf d) := rfl
theorem EncodeLength.cvtf2 (d : Sel) : EncodeLength.Statement (.cvtf2 d) := rfl
theorem EncodeLength.functUnused08 (d : Sel) : EncodeLength.Statement (.functUnused08 d) := rfl
theorem EncodeLength.functUnused09 (d : Sel) : EncodeLength.Statement (.functUnused09 d) := rfl
theorem EncodeLength.functUnused0A (d : Sel) : EncodeLength.Statement (.functUnused0A d) := rfl
theorem EncodeLength.functUnused0B (d : Sel) : EncodeLength.Statement (.functUnused0B d) := rfl
theorem EncodeLength.functUnused12 (d : Sel) : EncodeLength.Statement (.functUnused12 d) := rfl
theorem EncodeLength.functUnused13 (d : Sel) : EncodeLength.Statement (.functUnused13 d) := rfl
theorem EncodeLength.functUnused14 (d : Sel) : EncodeLength.Statement (.functUnused14 d) := rfl
theorem EncodeLength.functUnused15 (d : Sel) : EncodeLength.Statement (.functUnused15 d) := rfl
theorem EncodeLength.functUnused16 (d : Sel) : EncodeLength.Statement (.functUnused16 d) := rfl
theorem EncodeLength.functUnused17 (d : Sel) : EncodeLength.Statement (.functUnused17 d) := rfl
theorem EncodeLength.functUnused18 (d : Sel) : EncodeLength.Statement (.functUnused18 d) := rfl
theorem EncodeLength.functUnused19 (d : Sel) : EncodeLength.Statement (.functUnused19 d) := rfl
theorem EncodeLength.functUnused1A (d : Sel) : EncodeLength.Statement (.functUnused1A d) := rfl
theorem EncodeLength.functUnused1B (d : Sel) : EncodeLength.Statement (.functUnused1B d) := rfl
theorem EncodeLength.undefinedBit0 (w : Word) : EncodeLength.Statement (.undefinedBit0 w) := rfl

end Sys2Proof.Laws
end

