-- ==== Sys2Proof/Tests/Slice0.lean ====
section
/-! SUPPORT. Tests.  The words of the decoding tests are written from the encodings of spec/opcode_table.json; the
expected results of the step tests are the vectors of spec/95_test_vectors.md. -/

namespace Sys2Proof.Tests

open Sys2Proof Sys2Proof.Machine Sys2Proof.Machine.Safety

/-! ## Well-formedness: each check refuses an ill-formed term -/

/-- Every short form with n = 10000, which is the escape. -/
theorem test_wf_refuses_escape : [Instr.inPort 1#5 escape, .outPort 1#5 escape, .bsrShort 1#5 escape, .brzShort 1#5 escape, .brnzShort 1#5 escape,
    .brpShort 1#5 escape, .brmShort 1#5 escape, .shft 1#5 escape, .ldiuShort 1#5 escape, .ldisShort 1#5 escape,
    .ldifShort 1#5 escape, .ldif2Short 1#5 escape, .addiShort 1#5 escape, .subiShort 1#5 escape, .muliShort 1#5 escape,
    .diviShort 1#5 escape, .andiShort 1#5 escape, .oriShort 1#5 escape, .xoriShort 1#5 escape, .cmpiShort 1#5 escape].all
    (fun i => !i.wf) = true := by decide

/-- The four 8-bit instructions and a half-word with bit 0 = 1 are no undefined half-words. -/
theorem test_wf_refuses_defined_halfwords : [Instr.undefinedBit0 0x0000#16, .undefinedBit0 0x0040#16,
    .undefinedBit0 0x0080#16, .undefinedBit0 0x00C0#16, .undefinedBit0 0x0001#16].all (fun i => !i.wf) = true := by decide

theorem test_wf_accepts : (Instr.addiShort 0#5 0b01111#5).wf = true ∧ (Instr.undefinedBit0 0x0140#16).wf = true := by
  decide

/-! ## Decoding, a word for every constructor -/

theorem test_decode_trap : decode (bytesOfWord 0b0000000000000000#16) = .ok (.trap) := by decide
theorem test_decode_bkpt : decode (bytesOfWord 0b0000000001000000#16) = .ok (.bkpt) := by decide
theorem test_decode_algnw : decode (bytesOfWord 0b0000000010000000#16) = .ok (.algnw) := by decide
theorem test_decode_algnc : decode (bytesOfWord 0b0000000011000000#16) = .ok (.algnc) := by decide
theorem test_decode_add : decode (bytesOfWord 0b0011001101000101#16) = .ok (.add 0b01101#5 0b00110#5) := by decide
theorem test_decode_sub : decode (bytesOfWord 0b1001110110001101#16) = .ok (.sub 0b10110#5 0b10011#5) := by decide
theorem test_decode_mul : decode (bytesOfWord 0b0011001101010101#16) = .ok (.mul 0b01101#5 0b00110#5) := by decide
theorem test_decode_div : decode (bytesOfWord 0b1001110110011101#16) = .ok (.div 0b10110#5 0b10011#5) := by decide
theorem test_decode_and : decode (bytesOfWord 0b0011001101100101#16) = .ok (.and 0b01101#5 0b00110#5) := by decide
theorem test_decode_or : decode (bytesOfWord 0b1001110110101101#16) = .ok (.or 0b10110#5 0b10011#5) := by decide
theorem test_decode_xor : decode (bytesOfWord 0b0011001101110101#16) = .ok (.xor 0b01101#5 0b00110#5) := by decide
theorem test_decode_cmp : decode (bytesOfWord 0b1001110110111101#16) = .ok (.cmp 0b10110#5 0b10011#5) := by decide
theorem test_decode_ld : decode (bytesOfWord 0b0011001101010011#16) = .ok (.ld 0b01101#5 0b00110#5) := by decide
theorem test_decode_st : decode (bytesOfWord 0b1001110110011011#16) = .ok (.st 0b10110#5 0b10011#5) := by decide
theorem test_decode_mov : decode (bytesOfWord 0b0011001101011001#16) = .ok (.mov 0b01101#5 0b00110#5) := by decide
theorem test_decode_inPort : decode (bytesOfWord 0b1000110110000001#16) = .ok (.inPort 0b10110#5 0b10001#5) := by decide
theorem test_decode_ldt : decode (bytesOfWord 0b1000001101000001#16 ++ bytesOfWord 0x8001#16) = .ok (.ldt 0b01101#5 0x8001#16) := by decide
theorem test_decode_outPort : decode (bytesOfWord 0b1000110110001001#16) = .ok (.outPort 0b10110#5 0b10001#5) := by decide
theorem test_decode_stt : decode (bytesOfWord 0b1000001101001001#16 ++ bytesOfWord 0x8001#16) = .ok (.stt 0b01101#5 0x8001#16) := by decide
theorem test_decode_bsrShort : decode (bytesOfWord 0b1000110110010001#16) = .ok (.bsrShort 0b10110#5 0b10001#5) := by decide
theorem test_decode_bsrLong : decode (bytesOfWord 0b1000001101010001#16 ++ bytesOfWord 0x8001#16) = .ok (.bsrLong 0b01101#5 0x8001#16) := by decide
theorem test_decode_brzShort : decode (bytesOfWord 0b1000110110100001#16) = .ok (.brzShort 0b10110#5 0b10001#5) := by decide
theorem test_decode_brzLong : decode (bytesOfWord 0b1000001101100001#16 ++ bytesOfWord 0x8001#16) = .ok (.brzLong 0b01101#5 0x8001#16) := by decide
theorem test_decode_brnzShort : decode (bytesOfWord 0b1000110110101001#16) = .ok (.brnzShort 0b10110#5 0b10001#5) := by decide
theorem test_decode_brnzLong : decode (bytesOfWord 0b1000001101101001#16 ++ bytesOfWord 0x8001#16) = .ok (.brnzLong 0b01101#5 0x8001#16) := by decide
theorem test_decode_brpShort : decode (bytesOfWord 0b1000110110110001#16) = .ok (.brpShort 0b10110#5 0b10001#5) := by decide
theorem test_decode_brpLong : decode (bytesOfWord 0b1000001101110001#16 ++ bytesOfWord 0x8001#16) = .ok (.brpLong 0b01101#5 0x8001#16) := by decide
theorem test_decode_brmShort : decode (bytesOfWord 0b1000110110111001#16) = .ok (.brmShort 0b10110#5 0b10001#5) := by decide
theorem test_decode_brmLong : decode (bytesOfWord 0b1000001101111001#16 ++ bytesOfWord 0x8001#16) = .ok (.brmLong 0b01101#5 0x8001#16) := by decide
theorem test_decode_shft : decode (bytesOfWord 0b1000110110000011#16) = .ok (.shft 0b10110#5 0b10001#5) := by decide
theorem test_decode_extrct : decode (bytesOfWord 0b1000001101000011#16 ++ bytesOfWord 0x8001#16) = .ok (.extrct 0b01101#5 0x8001#16) := by decide
theorem test_decode_insrt : decode (bytesOfWord 0b1000010110001011#16 ++ bytesOfWord 0x1234#16) = .ok (.insrt 0b10110#5 0x1234#16) := by decide
theorem test_decode_ldiuShort : decode (bytesOfWord 0b0111101101100011#16) = .ok (.ldiuShort 0b01101#5 0b01111#5) := by decide
theorem test_decode_ldiuLong : decode (bytesOfWord 0b1000010110100011#16 ++ bytesOfWord 0x1234#16) = .ok (.ldiuLong 0b10110#5 0x1234#16) := by decide
theorem test_decode_ldisShort : decode (bytesOfWord 0b0111101101101011#16) = .ok (.ldisShort 0b01101#5 0b01111#5) := by decide
theorem test_decode_ldisLong : decode (bytesOfWord 0b1000010110101011#16 ++ bytesOfWord 0x1234#16) = .ok (.ldisLong 0b10110#5 0x1234#16) := by decide
theorem test_decode_ldifShort : decode (bytesOfWord 0b0111101101110011#16) = .ok (.ldifShort 0b01101#5 0b01111#5) := by decide
theorem test_decode_ldifLong : decode (bytesOfWord 0b1000010110110011#16 ++ bytesOfWord 0x1234#16) = .ok (.ldifLong 0b10110#5 0x1234#16) := by decide
theorem test_decode_ldif2Short : decode (bytesOfWord 0b0111101101111011#16) = .ok (.ldif2Short 0b01101#5 0b01111#5) := by decide
theorem test_decode_ldif2Long : decode (bytesOfWord 0b1000010110111011#16 ++ bytesOfWord 0x1234#16) = .ok (.ldif2Long 0b10110#5 0x1234#16) := by decide
theorem test_decode_addiShort : decode (bytesOfWord 0b0111101101000111#16) = .ok (.addiShort 0b01101#5 0b01111#5) := by decide
theorem test_decode_addiLong : decode (bytesOfWord 0b1000010110000111#16 ++ bytesOfWord 0x1234#16) = .ok (.addiLong 0b10110#5 0x1234#16) := by decide
theorem test_decode_subiShort : decode (bytesOfWord 0b0111101101001111#16) = .ok (.subiShort 0b01101#5 0b01111#5) := by decide
theorem test_decode_subiLong : decode (bytesOfWord 0b1000010110001111#16 ++ bytesOfWord 0x1234#16) = .ok (.subiLong 0b10110#5 0x1234#16) := by decide
theorem test_decode_muliShort : decode (bytesOfWord 0b0111101101010111#16) = .ok (.muliShort 0b01101#5 0b01111#5) := by decide
theorem test_decode_muliLong : decode (bytesOfWord 0b1000010110010111#16 ++ bytesOfWord 0x1234#16) = .ok (.muliLong 0b10110#5 0x1234#16) := by decide
theorem test_decode_diviShort : decode (bytesOfWord 0b0111101101011111#16) = .ok (.diviShort 0b01101#5 0b01111#5) := by decide
theorem test_decode_diviLong : decode (bytesOfWord 0b1000010110011111#16 ++ bytesOfWord 0x1234#16) = .ok (.diviLong 0b10110#5 0x1234#16) := by decide
theorem test_decode_andiShort : decode (bytesOfWord 0b0111101101100111#16) = .ok (.andiShort 0b01101#5 0b01111#5) := by decide
theorem test_decode_andiLong : decode (bytesOfWord 0b1000010110100111#16 ++ bytesOfWord 0x1234#16) = .ok (.andiLong 0b10110#5 0x1234#16) := by decide
theorem test_decode_oriShort : decode (bytesOfWord 0b0111101101101111#16) = .ok (.oriShort 0b01101#5 0b01111#5) := by decide
theorem test_decode_oriLong : decode (bytesOfWord 0b1000010110101111#16 ++ bytesOfWord 0x1234#16) = .ok (.oriLong 0b10110#5 0x1234#16) := by decide
theorem test_decode_xoriShort : decode (bytesOfWord 0b0111101101110111#16) = .ok (.xoriShort 0b01101#5 0b01111#5) := by decide
theorem test_decode_xoriLong : decode (bytesOfWord 0b1000010110110111#16 ++ bytesOfWord 0x1234#16) = .ok (.xoriLong 0b10110#5 0x1234#16) := by decide
theorem test_decode_cmpiShort : decode (bytesOfWord 0b0111101101111111#16) = .ok (.cmpiShort 0b01101#5 0b01111#5) := by decide
theorem test_decode_cmpiLong : decode (bytesOfWord 0b1000010110111111#16 ++ bytesOfWord 0x1234#16) = .ok (.cmpiLong 0b10110#5 0x1234#16) := by decide
theorem test_decode_setu : decode (bytesOfWord 0b0000001101001011#16) = .ok (.setu 0b01101#5) := by decide
theorem test_decode_sets : decode (bytesOfWord 0b0000110110001011#16) = .ok (.sets 0b10110#5) := by decide
theorem test_decode_setf : decode (bytesOfWord 0b0001001101001011#16) = .ok (.setf 0b01101#5) := by decide
theorem test_decode_setf2 : decode (bytesOfWord 0b0001110110001011#16) = .ok (.setf2 0b10110#5) := by decide
theorem test_decode_abs : decode (bytesOfWord 0b0010001101001011#16) = .ok (.abs 0b01101#5) := by decide
theorem test_decode_nabs : decode (bytesOfWord 0b0010110110001011#16) = .ok (.nabs 0b10110#5) := by decide
theorem test_decode_tag : decode (bytesOfWord 0b0011001101001011#16) = .ok (.tag 0b01101#5) := by decide
theorem test_decode_itag : decode (bytesOfWord 0b0011110110001011#16) = .ok (.itag 0b10110#5) := by decide
theorem test_decode_fldu : decode (bytesOfWord 0b0110001101001011#16) = .ok (.fldu 0b01101#5) := by decide
theorem test_decode_flds : decode (bytesOfWord 0b0110110110001011#16) = .ok (.flds 0b10110#5) := by decide
theorem test_decode_fldf : decode (bytesOfWord 0b0111001101001011#16) = .ok (.fldf 0b01101#5) := by decide
theorem test_decode_fldf2 : decode (bytesOfWord 0b0111110110001011#16) = .ok (.fldf2 0b10110#5) := by decide
theorem test_decode_fst : decode (bytesOfWord 0b1000101101001011#16) = .ok (.fst 0b01101#5) := by decide
theorem test_decode_cvtu : decode (bytesOfWord 0b1110010110001011#16) = .ok (.cvtu 0b10110#5) := by decide
theorem test_decode_cvts : decode (bytesOfWord 0b1110101101001011#16) = .ok (.cvts 0b01101#5) := by decide
theorem test_decode_cvtf : decode (bytesOfWord 0b1111010110001011#16) = .ok (.cvtf 0b10110#5) := by decide
theorem test_decode_cvtf2 : decode (bytesOfWord 0b1111101101001011#16) = .ok (.cvtf2 0b01101#5) := by decide
theorem test_decode_functUnused08 : decode (bytesOfWord 0b0100010110001011#16) = .ok (.functUnused08 0b10110#5) := by decide
theorem test_decode_functUnused09 : decode (bytesOfWord 0b0100101101001011#16) = .ok (.functUnused09 0b01101#5) := by decide
theorem test_decode_functUnused0A : decode (bytesOfWord 0b0101010110001011#16) = .ok (.functUnused0A 0b10110#5) := by decide
theorem test_decode_functUnused0B : decode (bytesOfWord 0b0101101101001011#16) = .ok (.functUnused0B 0b01101#5) := by decide
theorem test_decode_functUnused12 : decode (bytesOfWord 0b1001010110001011#16) = .ok (.functUnused12 0b10110#5) := by decide
theorem test_decode_functUnused13 : decode (bytesOfWord 0b1001101101001011#16) = .ok (.functUnused13 0b01101#5) := by decide
theorem test_decode_functUnused14 : decode (bytesOfWord 0b1010010110001011#16) = .ok (.functUnused14 0b10110#5) := by decide
theorem test_decode_functUnused15 : decode (bytesOfWord 0b1010101101001011#16) = .ok (.functUnused15 0b01101#5) := by decide
theorem test_decode_functUnused16 : decode (bytesOfWord 0b1011010110001011#16) = .ok (.functUnused16 0b10110#5) := by decide
theorem test_decode_functUnused17 : decode (bytesOfWord 0b1011101101001011#16) = .ok (.functUnused17 0b01101#5) := by decide
theorem test_decode_functUnused18 : decode (bytesOfWord 0b1100010110001011#16) = .ok (.functUnused18 0b10110#5) := by decide
theorem test_decode_functUnused19 : decode (bytesOfWord 0b1100101101001011#16) = .ok (.functUnused19 0b01101#5) := by decide
theorem test_decode_functUnused1A : decode (bytesOfWord 0b1101010110001011#16) = .ok (.functUnused1A 0b10110#5) := by decide
theorem test_decode_functUnused1B : decode (bytesOfWord 0b1101101101001011#16) = .ok (.functUnused1B 0b01101#5) := by decide
theorem test_decode_undefinedBit0 : decode (bytesOfWord 0b0000000101000000#16) = .ok (.undefinedBit0 0x0140#16) := by decide

/-- Bytes that are too few for an instruction are refused by name. -/
theorem test_decode_refuses : decode [] = .error .noFirstHalfword ∧ decode [0x45#8] = .error .noFirstHalfword ∧
    decode [0x41#8, 0x81#8, 0x00#8] = .error .noSecondHalfword := by decide

/-- The host's two functions: LDT with N = 0x2000, and TRAP as the first instruction after reset. -/
theorem test_decodeTableWord : decodeTableWord 32 0x20008141 = some (.ldt 5#5 0x2000#16) ∧
    decodeTableWord 16 0x8141 = some (.ldt 5#5 0x0000#16) := by decide

/-! ## One step -/

/-- A state with the given PC, registers and half-words. -/
def at0 (pc : Word) (regs : List (Sel × RegVal)) (mem : List (Word × Word)) : State :=
  { regs.foldl (fun s r => s.setReg r.1 r.2) State.reset with
    pc := pc, mem := mem.foldl (fun m c => Memory.writeHalf m c.1 c.2) [] }

/-- Does the step go to a next state that passes the check? -/
def goesTo (s : State) (check : State → Bool) : Bool :=
  match step s with
  | .next t => check t
  | .fault _ => false
  | .refused _ => false

theorem test_withFetchWord : goesTo (State.reset.withFetchWord 16 0x0040) (fun t => t.pc == 0x0040#16) = true := by decide

/-- The run from reset with nothing placed stops at the first fetch (log 2). -/
theorem test_reset_run_faults : step State.reset = .fault (.uninitialisedMemory 0x0000#16) := rfl

/-- TRAP -/
theorem test_step_trap :
    goesTo (at0 0xFFFF#16 [] [(0xFFFF#16, 0x0000#16)])
      (fun t => t.save == 0xFFFF#16 && t.pc == 0x0020#16) = true := by
  decide

/-- BKPT -/
theorem test_step_bkpt :
    goesTo (at0 0x0123#16 [] [(0x0123#16, 0x0040#16)])
      (fun t => t.save == 0x0123#16 && t.pc == 0x0040#16) = true := by
  decide

/-- ALGNW -/
theorem test_step_algnw :
    goesTo (at0 0xFFFF#16 [] [(0xFFFF#16, 0x0080#16)])
      (fun t => t.pc == 0x0000#16) = true := by
  decide

/-- ALGNC -/
theorem test_step_algnc :
    goesTo (at0 0x0123#16 [] [(0x0123#16, 0x00C0#16)])
      (fun t => t.pc == 0x0130#16) = true := by
  decide

/-- ADD r1, r2 -/
theorem test_step_add :
    goesTo (at0 0x0100#16 [(1#5, ⟨0x8000#16, .s, 0#2⟩), (2#5, ⟨0xFFFF#16, .s, 0#2⟩)] [(0x0100#16, 0x1045#16)])
      (fun t => t.reg 1#5 == ⟨0x7FFF#16, .s, 0#2⟩ && t.reg 28#5 == ⟨0xFFFF#16, .s, 0#2⟩ &&
        t.pc == 0x0101#16) = true := by
  decide

/-- SUB r1, r2 -/
theorem test_step_sub :
    goesTo (at0 0x0100#16 [(1#5, ⟨0x0001#16, .s, 0#2⟩), (2#5, ⟨0x8000#16, .s, 0#2⟩)] [(0x0100#16, 0x104D#16)])
      (fun t => t.reg 1#5 == ⟨0x7FFF#16, .s, 0#2⟩ && t.reg 28#5 == ⟨0xFFFF#16, .s, 0#2⟩ &&
        t.pc == 0x0101#16) = true := by
  decide

/-- MUL r1, r2 -/
theorem test_step_mul :
    goesTo (at0 0x0100#16 [(1#5, ⟨0xFFFF#16, .u, 0#2⟩), (2#5, ⟨0xFFFF#16, .u, 0#2⟩)] [(0x0100#16, 0x1055#16)])
      (fun t => t.reg 1#5 == ⟨0x0001#16, .u, 0#2⟩ && t.reg 28#5 == ⟨0xFFFE#16, .u, 0#2⟩ &&
        t.pc == 0x0101#16) = true := by
  decide

/-- DIV r1, r2 -/
theorem test_step_div :
    goesTo (at0 0x0100#16 [(1#5, ⟨0xFFFF#16, .u, 0#2⟩), (2#5, ⟨0x0002#16, .u, 0#2⟩)] [(0x0100#16, 0x105D#16)])
      (fun t => t.reg 1#5 == ⟨0x7FFF#16, .u, 0#2⟩ && t.reg 28#5 == ⟨0x0001#16, .u, 0#2⟩ &&
        t.pc == 0x0101#16) = true := by
  decide

/-- AND res, r2 -/
theorem test_step_and :
    goesTo (at0 0x0100#16 [(28#5, ⟨0x00FF#16, .s, 0#2⟩), (2#5, ⟨0x0F0F#16, .u, 0#2⟩)] [(0x0100#16, 0x1725#16)])
      (fun t => t.reg 28#5 == ⟨0x000F#16, .s, 0#2⟩ && t.pc == 0x0101#16) = true := by
  decide

/-- OR r1, r2 -/
theorem test_step_or :
    goesTo (at0 0x0100#16 [(1#5, ⟨0xFF0F#16, .s, 0#2⟩), (2#5, ⟨0x0FF0#16, .u, 0#2⟩)] [(0x0100#16, 0x106D#16)])
      (fun t => t.reg 1#5 == ⟨0xFFFF#16, .s, 0#2⟩ && t.pc == 0x0101#16) = true := by
  decide

/-- XOR r1, r2 -/
theorem test_step_xor :
    goesTo (at0 0x0100#16 [(1#5, ⟨0xFF0F#16, .u, 0#2⟩), (2#5, ⟨0x0FF0#16, .f2, 0#2⟩)] [(0x0100#16, 0x1075#16)])
      (fun t => t.reg 1#5 == ⟨0xF0FF#16, .u, 0#2⟩ && t.pc == 0x0101#16) = true := by
  decide

/-- CMP r1, r2 -/
theorem test_step_cmp :
    goesTo (at0 0x0100#16 [(1#5, ⟨0x7FFF#16, .s, 0#2⟩), (2#5, ⟨0xFFFF#16, .s, 0#2⟩)] [(0x0100#16, 0x107D#16)])
      (fun t => t.reg 28#5 == ⟨0x8000#16, .s, 0#2⟩ && t.pc == 0x0101#16) = true := by
  decide

/-- LD res, (r2) -/
theorem test_step_ld :
    goesTo (at0 0x0100#16 [(28#5, ⟨0x0000#16, .s, 0#2⟩), (2#5, ⟨0x3000#16, .u, 0#2⟩)]
        [(0x3000#16, 0x8000#16), (0x0100#16, 0x1713#16)])
      (fun t => t.reg 28#5 == ⟨0x8000#16, .s, 0#2⟩ && t.pc == 0x0101#16) = true := by
  decide

/-- ST r1, (r2) -/
theorem test_step_st :
    goesTo (at0 0x0100#16 [(1#5, ⟨0xCAFE#16, .s, 0#2⟩), (2#5, ⟨0xFFFF#16, .s, 0#2⟩)] [(0x0100#16, 0x105B#16)])
      (fun t => t.mem.readHalf 0xFFFF#16 == some 0xCAFE#16 && t.pc == 0x0101#16) = true := by
  decide

/-- MOV r1, res -/
theorem test_step_mov :
    goesTo (at0 0x0100#16 [(28#5, ⟨0xFFFF#16, .s, 0#2⟩)] [(0x0100#16, 0xE059#16)])
      (fun t => t.reg 1#5 == ⟨0xFFFF#16, .s, 0#2⟩ && t.pc == 0x0101#16) = true := by
  decide

/-- IN r3, 15 -/
theorem test_step_inPort :
    goesTo ({ at0 0x0100#16 [] [(0x0100#16, 0x78C1#16)] with inputs := [(15#5, 0x8000#16)] })
      (fun t => t.reg 3#5 == ⟨0x8000#16, .u, 0#2⟩ && t.pc == 0x0101#16) = true := by
  decide

/-- LDT r5, @0xFFFF -/
theorem test_step_ldt :
    goesTo (at0 0x0100#16 []
        [(0xFFFF#16, 0x00AA#16), (0x0000#16, 0x000D#16), (0x0100#16, 0x8141#16), (0x0101#16, 0xFFFF#16)])
      (fun t => t.reg 5#5 == ⟨0x00AA#16, .s, 3#2⟩ && t.pc == 0x0102#16) = true := by
  decide

/-- OUT r3, 15 -/
theorem test_step_outPort :
    goesTo (at0 0x0100#16 [(3#5, ⟨0xFFFF#16, .f, 0#2⟩)] [(0x0100#16, 0x78C9#16)])
      (fun t => t.events == [.output 15#5 0xFFFF#16] && t.pc == 0x0101#16) = true := by
  decide

/-- STT r5, @0xFFFF -/
theorem test_step_stt :
    goesTo (at0 0x0100#16 [(5#5, ⟨0x00AA#16, .u, 0#2⟩)] [(0x0100#16, 0x8149#16), (0x0101#16, 0xFFFF#16)])
      (fun t => t.mem.readHalf 0x0000#16 == some 0x0000#16 && t.mem.readHalf 0xFFFF#16 == some 0x00AA#16 &&
        t.pc == 0x0102#16) = true := by
  decide

/-- BSR res, .+1 -/
theorem test_step_bsrShort :
    goesTo (at0 0x0100#16 [(28#5, ⟨0x0000#16, .s, 0#2⟩)] [(0x0100#16, 0x0F11#16)])
      (fun t => t.reg 28#5 == ⟨0x0101#16, .u, 0#2⟩ && t.pc == 0x0101#16) = true := by
  decide

/-- BSR r30, @0x0400 -/
theorem test_step_bsrLong :
    goesTo (at0 0xFFFF#16 [] [(0x0000#16, 0x0400#16), (0xFFFF#16, 0x8791#16), (0x0000#16, 0x0400#16)])
      (fun t => t.reg 30#5 == ⟨0x0001#16, .u, 0#2⟩ && t.pc == 0x0400#16) = true := by
  decide

/-- BRZ r1, .-3 -/
theorem test_step_brzShort :
    goesTo (at0 0x0100#16 [(1#5, ⟨0x0000#16, .u, 0#2⟩)] [(0x0100#16, 0xE861#16)])
      (fun t => t.pc == 0x00FD#16) = true := by
  decide

/-- BRZ r1, @0x0400 -/
theorem test_step_brzLong :
    goesTo (at0 0x0100#16 [(1#5, ⟨0x0000#16, .s, 0#2⟩)] [(0x0100#16, 0x8061#16), (0x0101#16, 0x0400#16)])
      (fun t => t.pc == 0x0400#16) = true := by
  decide

/-- BRNZ r1, .+15 -/
theorem test_step_brnzShort :
    goesTo (at0 0xFFF8#16 [(1#5, ⟨0x8000#16, .u, 0#2⟩)] [(0xFFF8#16, 0x7869#16)])
      (fun t => t.pc == 0x0007#16) = true := by
  decide

/-- BRNZ r1, @0x0400 -/
theorem test_step_brnzLong :
    goesTo (at0 0x0100#16 [(1#5, ⟨0x0005#16, .s, 0#2⟩)] [(0x0100#16, 0x8069#16), (0x0101#16, 0x0400#16)])
      (fun t => t.pc == 0x0400#16) = true := by
  decide

/-- BRP r4, .+2 -/
theorem test_step_brpShort :
    goesTo (at0 0x0100#16 [(4#5, ⟨0x7FFF#16, .s, 0#2⟩)] [(0x0100#16, 0x1131#16)])
      (fun t => t.pc == 0x0102#16) = true := by
  decide

/-- BRM r1, .-1 -/
theorem test_step_brmShort :
    goesTo (at0 0x0000#16 [(1#5, ⟨0x8000#16, .s, 0#2⟩)] [(0x0000#16, 0xF879#16)])
      (fun t => t.pc == 0xFFFF#16) = true := by
  decide

/-- BRM pc, @0x0400 -/
theorem test_step_brmLong :
    goesTo (at0 0x0100#16 [] [(0x0100#16, 0x87F9#16), (0x0101#16, 0x0400#16)])
      (fun t => t.save == 0x0100#16 && t.pc == 0x0060#16) = true := by
  decide

/-- SHFT r1, #-15 -/
theorem test_step_shft :
    goesTo (at0 0x0100#16 [(1#5, ⟨0x8000#16, .s, 0#2⟩)] [(0x0100#16, 0x8843#16)])
      (fun t => t.reg 1#5 == ⟨0xFFFF#16, .s, 0#2⟩ && t.pc == 0x0101#16) = true := by
  decide

/-- EXTRCT r1, S, 1, 15 -/
theorem test_step_extrct :
    goesTo (at0 0x0100#16 [(1#5, ⟨0x8000#16, .u, 0#2⟩)] [(0x0100#16, 0x8043#16), (0x0101#16, 0x404F#16)])
      (fun t => t.reg 28#5 == ⟨0xFFFF#16, .s, 0#2⟩ && t.pc == 0x0102#16) = true := by
  decide

/-- INSRT r1, 1, 15 -/
theorem test_step_insrt :
    goesTo (at0 0x0100#16 [(1#5, ⟨0x0000#16, .s, 0#2⟩), (28#5, ⟨0x0001#16, .u, 0#2⟩)]
        [(0x0100#16, 0x804B#16), (0x0101#16, 0x004F#16)])
      (fun t => t.reg 1#5 == ⟨0x8000#16, .s, 0#2⟩ && t.pc == 0x0102#16) = true := by
  decide

/-- LDIU r1, #-1 -/
theorem test_step_ldiuShort :
    goesTo (at0 0x0100#16 [(1#5, ⟨0x0000#16, .s, 0#2⟩)] [(0x0100#16, 0xF863#16)])
      (fun t => t.reg 1#5 == ⟨0xFFFF#16, .u, 0#2⟩ && t.pc == 0x0101#16) = true := by
  decide

/-- LDIU r2, ##0x2000 -/
theorem test_step_ldiuLong :
    goesTo (at0 0x0100#16 [] [(0x0100#16, 0x80A3#16), (0x0101#16, 0x2000#16)])
      (fun t => t.reg 2#5 == ⟨0x2000#16, .u, 0#2⟩ && t.pc == 0x0102#16) = true := by
  decide

/-- LDIS r1, #-3 -/
theorem test_step_ldisShort :
    goesTo (at0 0x0100#16 [] [(0x0100#16, 0xE86B#16)])
      (fun t => t.reg 1#5 == ⟨0xFFFD#16, .s, 0#2⟩ && t.pc == 0x0101#16) = true := by
  decide

/-- LDIS r1, ##0x8000 -/
theorem test_step_ldisLong :
    goesTo (at0 0x0100#16 [] [(0x0100#16, 0x806B#16), (0x0101#16, 0x8000#16)])
      (fun t => t.reg 1#5 == ⟨0x8000#16, .s, 0#2⟩ && t.pc == 0x0102#16) = true := by
  decide

/-- LDIF pc, #1 -/
theorem test_step_ldifShort :
    goesTo (at0 0x0100#16 [] [(0x0100#16, 0x0FF3#16)])
      (fun t => t.save == 0x0100#16 && t.pc == 0x0060#16) = true := by
  decide

/-- LDIF2 pc, #1 -/
theorem test_step_ldif2Short :
    goesTo (at0 0x0100#16 [] [(0x0100#16, 0x0FFB#16)])
      (fun t => t.save == 0x0100#16 && t.pc == 0x0060#16) = true := by
  decide

/-- ADDI r1, #-1 -/
theorem test_step_addiShort :
    goesTo (at0 0x0100#16 [(1#5, ⟨0x0000#16, .u, 0#2⟩)] [(0x0100#16, 0xF847#16)])
      (fun t => t.reg 1#5 == ⟨0xFFFF#16, .u, 0#2⟩ && t.reg 28#5 == ⟨0x0000#16, .u, 0#2⟩ &&
        t.pc == 0x0101#16) = true := by
  decide

/-- ADDI r1, ##0x8000 -/
theorem test_step_addiLong :
    goesTo (at0 0x0100#16 [(1#5, ⟨0x8000#16, .s, 0#2⟩)] [(0x0100#16, 0x8047#16), (0x0101#16, 0x8000#16)])
      (fun t => t.reg 1#5 == ⟨0x0000#16, .s, 0#2⟩ && t.reg 28#5 == ⟨0xFFFF#16, .s, 0#2⟩ &&
        t.pc == 0x0102#16) = true := by
  decide

/-- SUBI r1, #-1 -/
theorem test_step_subiShort :
    goesTo (at0 0x0100#16 [(1#5, ⟨0x7FFF#16, .s, 0#2⟩)] [(0x0100#16, 0xF84F#16)])
      (fun t => t.reg 1#5 == ⟨0x8000#16, .s, 0#2⟩ && t.reg 28#5 == ⟨0x0000#16, .s, 0#2⟩ &&
        t.pc == 0x0101#16) = true := by
  decide

/-- SUBI r1, ##0x8000 -/
theorem test_step_subiLong :
    goesTo (at0 0x0100#16 [(1#5, ⟨0x0001#16, .s, 0#2⟩)] [(0x0100#16, 0x804F#16), (0x0101#16, 0x8000#16)])
      (fun t => t.reg 1#5 == ⟨0x7FFF#16, .s, 0#2⟩ && t.reg 28#5 == ⟨0xFFFF#16, .s, 0#2⟩ &&
        t.pc == 0x0102#16) = true := by
  decide

/-- MULI r1, #3 -/
theorem test_step_muliShort :
    goesTo (at0 0x0100#16 [(1#5, ⟨0x5555#16, .u, 0#2⟩)] [(0x0100#16, 0x1857#16)])
      (fun t => t.reg 1#5 == ⟨0xFFFF#16, .u, 0#2⟩ && t.reg 28#5 == ⟨0x0000#16, .u, 0#2⟩ &&
        t.pc == 0x0101#16) = true := by
  decide

/-- MULI r1, ##0x0010 -/
theorem test_step_muliLong :
    goesTo (at0 0x0100#16 [(1#5, ⟨0xABCD#16, .u, 0#2⟩)] [(0x0100#16, 0x8057#16), (0x0101#16, 0x0010#16)])
      (fun t => t.reg 1#5 == ⟨0xBCD0#16, .u, 0#2⟩ && t.reg 28#5 == ⟨0x000A#16, .u, 0#2⟩ &&
        t.pc == 0x0102#16) = true := by
  decide

/-- DIVI r1, #10 -/
theorem test_step_diviShort :
    goesTo (at0 0x0100#16 [(1#5, ⟨0x04D2#16, .u, 0#2⟩)] [(0x0100#16, 0x505F#16)])
      (fun t => t.reg 1#5 == ⟨0x007B#16, .u, 0#2⟩ && t.reg 28#5 == ⟨0x0004#16, .u, 0#2⟩ &&
        t.pc == 0x0101#16) = true := by
  decide

/-- DIVI r1, ##0x0100 -/
theorem test_step_diviLong :
    goesTo (at0 0x0100#16 [(1#5, ⟨0x1234#16, .s, 0#2⟩)] [(0x0100#16, 0x805F#16), (0x0101#16, 0x0100#16)])
      (fun t => t.reg 1#5 == ⟨0x0012#16, .s, 0#2⟩ && t.reg 28#5 == ⟨0x0034#16, .s, 0#2⟩ &&
        t.pc == 0x0102#16) = true := by
  decide

/-- ANDI r1, #15 -/
theorem test_step_andiShort :
    goesTo (at0 0x0100#16 [(1#5, ⟨0xABCD#16, .s, 0#2⟩)] [(0x0100#16, 0x7867#16)])
      (fun t => t.reg 1#5 == ⟨0x000D#16, .s, 0#2⟩ && t.pc == 0x0101#16) = true := by
  decide

/-- ANDI r1, ##0x0FF0 -/
theorem test_step_andiLong :
    goesTo (at0 0x0100#16 [(1#5, ⟨0xABCD#16, .f, 0#2⟩)] [(0x0100#16, 0x8067#16), (0x0101#16, 0x0FF0#16)])
      (fun t => t.reg 1#5 == ⟨0x0BC0#16, .f, 0#2⟩ && t.pc == 0x0102#16) = true := by
  decide

/-- ORI r1, #-1 -/
theorem test_step_oriShort :
    goesTo (at0 0x0100#16 [(1#5, ⟨0x1000#16, .s, 0#2⟩)] [(0x0100#16, 0xF86F#16)])
      (fun t => t.reg 1#5 == ⟨0xFFFF#16, .s, 0#2⟩ && t.pc == 0x0101#16) = true := by
  decide

/-- ORI r1, ##0x8000 -/
theorem test_step_oriLong :
    goesTo (at0 0x0100#16 [(1#5, ⟨0x0001#16, .u, 0#2⟩)] [(0x0100#16, 0x806F#16), (0x0101#16, 0x8000#16)])
      (fun t => t.reg 1#5 == ⟨0x8001#16, .u, 0#2⟩ && t.pc == 0x0102#16) = true := by
  decide

/-- XORI r1, #-1 -/
theorem test_step_xoriShort :
    goesTo (at0 0x0100#16 [(1#5, ⟨0x00FF#16, .u, 0#2⟩)] [(0x0100#16, 0xF877#16)])
      (fun t => t.reg 1#5 == ⟨0xFF00#16, .u, 0#2⟩ && t.pc == 0x0101#16) = true := by
  decide

/-- XORI r1, ##0x00FF -/
theorem test_step_xoriLong :
    goesTo (at0 0x0100#16 [(1#5, ⟨0x0F0F#16, .s, 0#2⟩)] [(0x0100#16, 0x8077#16), (0x0101#16, 0x00FF#16)])
      (fun t => t.reg 1#5 == ⟨0x0FF0#16, .s, 0#2⟩ && t.pc == 0x0102#16) = true := by
  decide

/-- CMPI r1, #-1 -/
theorem test_step_cmpiShort :
    goesTo (at0 0x0100#16 [(1#5, ⟨0xFFFF#16, .u, 0#2⟩)] [(0x0100#16, 0xF87F#16)])
      (fun t => t.reg 28#5 == ⟨0x0000#16, .u, 0#2⟩ && t.pc == 0x0101#16) = true := by
  decide

/-- CMPI r1, ##0x1234 -/
theorem test_step_cmpiLong :
    goesTo (at0 0x0100#16 [(1#5, ⟨0x0234#16, .u, 0#2⟩)] [(0x0100#16, 0x807F#16), (0x0101#16, 0x1234#16)])
      (fun t => t.reg 28#5 == ⟨0x1000#16, .u, 0#2⟩ && t.pc == 0x0102#16) = true := by
  decide

/-- SETU r1 -/
theorem test_step_setu :
    goesTo (at0 0x0100#16 [(1#5, ⟨0xFFFF#16, .s, 0#2⟩)] [(0x0100#16, 0x004B#16)])
      (fun t => t.reg 1#5 == ⟨0xFFFF#16, .u, 0#2⟩ && t.pc == 0x0101#16) = true := by
  decide

/-- SETS r1 -/
theorem test_step_sets :
    goesTo (at0 0x0100#16 [(1#5, ⟨0xFFFF#16, .u, 0#2⟩)] [(0x0100#16, 0x084B#16)])
      (fun t => t.reg 1#5 == ⟨0xFFFF#16, .s, 0#2⟩ && t.pc == 0x0101#16) = true := by
  decide

/-- SETF r1 -/
theorem test_step_setf :
    goesTo (at0 0x0100#16 [(1#5, ⟨0x3C00#16, .u, 0#2⟩)] [(0x0100#16, 0x104B#16)])
      (fun t => t.reg 1#5 == ⟨0x3C00#16, .f, 0#2⟩ && t.pc == 0x0101#16) = true := by
  decide

/-- SETF2 r1 -/
theorem test_step_setf2 :
    goesTo (at0 0x0100#16 [(1#5, ⟨0x3C00#16, .s, 0#2⟩)] [(0x0100#16, 0x184B#16)])
      (fun t => t.reg 1#5 == ⟨0x3C00#16, .f2, 0#2⟩ && t.pc == 0x0101#16) = true := by
  decide

/-- ABS r1 -/
theorem test_step_abs :
    goesTo (at0 0x0100#16 [(1#5, ⟨0xFFFB#16, .s, 0#2⟩)] [(0x0100#16, 0x204B#16)])
      (fun t => t.reg 1#5 == ⟨0x0005#16, .s, 0#2⟩ && t.pc == 0x0101#16) = true := by
  decide

/-- NABS r1 -/
theorem test_step_nabs :
    goesTo (at0 0x0100#16 [(1#5, ⟨0x7FFF#16, .s, 0#2⟩)] [(0x0100#16, 0x284B#16)])
      (fun t => t.reg 1#5 == ⟨0x8001#16, .s, 0#2⟩ && t.pc == 0x0101#16) = true := by
  decide

/-- TAG r1 -/
theorem test_step_tag :
    goesTo (at0 0x0100#16 [(1#5, ⟨0x1234#16, .s, 0#2⟩), (28#5, ⟨0x9999#16, .s, 0#2⟩)] [(0x0100#16, 0x304B#16)])
      (fun t => t.reg 28#5 == ⟨0x0001#16, .u, 0#2⟩ && t.pc == 0x0101#16) = true := by
  decide

/-- ITAG r1 -/
theorem test_step_itag :
    goesTo (at0 0x0100#16 [(1#5, ⟨0x00FF#16, .u, 0#2⟩), (28#5, ⟨0x0000#16, .s, 0#2⟩)] [(0x0100#16, 0x384B#16)])
      (fun t => t.reg 1#5 == ⟨0x00FF#16, .s, 0#2⟩ && t.pc == 0x0101#16) = true := by
  decide

/-- FLDU r2 -/
theorem test_step_fldu :
    goesTo (at0 0x0100#16 [(2#5, ⟨0x3000#16, .s, 0#2⟩)] [(0x3000#16, 0xFFFE#16), (0x0100#16, 0x608B#16)])
      (fun t => t.reg 28#5 == ⟨0xFFFE#16, .u, 0#2⟩ && t.pc == 0x0101#16) = true := by
  decide

/-- FLDS r2 -/
theorem test_step_flds :
    goesTo (at0 0x0100#16 [(2#5, ⟨0x3000#16, .u, 0#2⟩)] [(0x3000#16, 0xFFFE#16), (0x0100#16, 0x688B#16)])
      (fun t => t.reg 28#5 == ⟨0xFFFE#16, .s, 0#2⟩ && t.pc == 0x0101#16) = true := by
  decide

/-- FST r2 -/
theorem test_step_fst :
    goesTo (at0 0x0100#16 [(2#5, ⟨0x3002#16, .u, 0#2⟩), (28#5, ⟨0x0012#16, .u, 0#2⟩)] [(0x0100#16, 0x888B#16)])
      (fun t => t.mem.readHalf 0x3002#16 == some 0x0012#16 && t.pc == 0x0101#16) = true := by
  decide

/-- CVTU r1 -/
theorem test_step_cvtu :
    goesTo (at0 0x0100#16 [(28#5, ⟨0x1111#16, .u, 0#2⟩), (1#5, ⟨0x0005#16, .s, 0#2⟩)] [(0x0100#16, 0xE04B#16)])
      (fun t => t.reg 1#5 == ⟨0x0005#16, .u, 0#2⟩ && t.pc == 0x0101#16) = true := by
  decide

/-- CVTS r1 -/
theorem test_step_cvts :
    goesTo (at0 0x0100#16 [(28#5, ⟨0x1111#16, .u, 0#2⟩), (1#5, ⟨0x0064#16, .u, 0#2⟩)] [(0x0100#16, 0xE84B#16)])
      (fun t => t.reg 1#5 == ⟨0x0064#16, .s, 0#2⟩ && t.pc == 0x0101#16) = true := by
  decide

/-- CVTF pc -/
theorem test_step_cvtf :
    goesTo (at0 0x0100#16 [] [(0x0100#16, 0xF7CB#16)])
      (fun t => t.save == 0x0100#16 && t.pc == 0x0060#16) = true := by
  decide

/-- (FUNCT code 0x08) r1 -/
theorem test_step_functUnused08 :
    goesTo (at0 0x0300#16 [(1#5, ⟨0x0001#16, .u, 0#2⟩)] [(0x0300#16, 0x404B#16)])
      (fun t => t.save == 0x0300#16 && t.pc == 0x0080#16) = true := by
  decide

/-- (FUNCT code 0x09) r1 -/
theorem test_step_functUnused09 :
    goesTo (at0 0x0300#16 [(1#5, ⟨0x0001#16, .u, 0#2⟩)] [(0x0300#16, 0x484B#16)])
      (fun t => t.save == 0x0300#16 && t.pc == 0x0080#16) = true := by
  decide

/-- (FUNCT code 0x0A) r1 -/
theorem test_step_functUnused0A :
    goesTo (at0 0x0300#16 [(1#5, ⟨0x0001#16, .u, 0#2⟩)] [(0x0300#16, 0x504B#16)])
      (fun t => t.save == 0x0300#16 && t.pc == 0x0080#16) = true := by
  decide

/-- (FUNCT code 0x0B) r1 -/
theorem test_step_functUnused0B :
    goesTo (at0 0x0300#16 [(1#5, ⟨0x0001#16, .u, 0#2⟩)] [(0x0300#16, 0x584B#16)])
      (fun t => t.save == 0x0300#16 && t.pc == 0x0080#16) = true := by
  decide

/-- (FUNCT code 0x12) r1 -/
theorem test_step_functUnused12 :
    goesTo (at0 0x0300#16 [(1#5, ⟨0x0001#16, .u, 0#2⟩)] [(0x0300#16, 0x904B#16)])
      (fun t => t.save == 0x0300#16 && t.pc == 0x0080#16) = true := by
  decide

/-- (FUNCT code 0x13) r1 -/
theorem test_step_functUnused13 :
    goesTo (at0 0x0300#16 [(1#5, ⟨0x0001#16, .u, 0#2⟩)] [(0x0300#16, 0x984B#16)])
      (fun t => t.save == 0x0300#16 && t.pc == 0x0080#16) = true := by
  decide

/-- (FUNCT code 0x14) r1 -/
theorem test_step_functUnused14 :
    goesTo (at0 0x0300#16 [(1#5, ⟨0x0001#16, .u, 0#2⟩)] [(0x0300#16, 0xA04B#16)])
      (fun t => t.save == 0x0300#16 && t.pc == 0x0080#16) = true := by
  decide

/-- (FUNCT code 0x15) r1 -/
theorem test_step_functUnused15 :
    goesTo (at0 0x0300#16 [(1#5, ⟨0x0001#16, .u, 0#2⟩)] [(0x0300#16, 0xA84B#16)])
      (fun t => t.save == 0x0300#16 && t.pc == 0x0080#16) = true := by
  decide

/-- (FUNCT code 0x16) r1 -/
theorem test_step_functUnused16 :
    goesTo (at0 0x0300#16 [(1#5, ⟨0x0001#16, .u, 0#2⟩)] [(0x0300#16, 0xB04B#16)])
      (fun t => t.save == 0x0300#16 && t.pc == 0x0080#16) = true := by
  decide

/-- (FUNCT code 0x17) r1 -/
theorem test_step_functUnused17 :
    goesTo (at0 0x0300#16 [(1#5, ⟨0x0001#16, .u, 0#2⟩)] [(0x0300#16, 0xB84B#16)])
      (fun t => t.save == 0x0300#16 && t.pc == 0x0080#16) = true := by
  decide

/-- (FUNCT code 0x18) r1 -/
theorem test_step_functUnused18 :
    goesTo (at0 0x0300#16 [(1#5, ⟨0x0001#16, .u, 0#2⟩)] [(0x0300#16, 0xC04B#16)])
      (fun t => t.save == 0x0300#16 && t.pc == 0x0080#16) = true := by
  decide

/-- (FUNCT code 0x19) r1 -/
theorem test_step_functUnused19 :
    goesTo (at0 0x0300#16 [(1#5, ⟨0x0001#16, .u, 0#2⟩)] [(0x0300#16, 0xC84B#16)])
      (fun t => t.save == 0x0300#16 && t.pc == 0x0080#16) = true := by
  decide

/-- (FUNCT code 0x1A) r1 -/
theorem test_step_functUnused1A :
    goesTo (at0 0x0300#16 [(1#5, ⟨0x0001#16, .u, 0#2⟩)] [(0x0300#16, 0xD04B#16)])
      (fun t => t.save == 0x0300#16 && t.pc == 0x0080#16) = true := by
  decide

/-- (FUNCT code 0x1B) r1 -/
theorem test_step_functUnused1B :
    goesTo (at0 0x0300#16 [(1#5, ⟨0x0001#16, .u, 0#2⟩)] [(0x0300#16, 0xD84B#16)])
      (fun t => t.save == 0x0300#16 && t.pc == 0x0080#16) = true := by
  decide

/-- (undefined) -/
theorem test_step_undefinedBit0 :
    goesTo (at0 0x0123#16 [] [(0x0123#16, 0x8000#16)])
      (fun t => t.save == 0x0123#16 && t.pc == 0x0080#16) = true := by
  decide

/-- BRP r1, 0x8000 on zero (R126) -/
theorem test_step_brpLong :
    goesTo (at0 0x0100#16 [(1#5, ⟨0x0000#16, .s, 0#2⟩)] [(0x0100#16, 0x8071#16), (0x0101#16, 0x8000#16)])
      (fun t => t.pc == 0x8000#16) = true := by
  decide

/-- LDIF r1, N: the type tag and the length are stated (R182) -/
theorem test_step_ldifLong :
    goesTo (at0 0x0100#16 [] [(0x0100#16, 0x8073#16), (0x0101#16, 0x0001#16)])
      (fun t => (t.reg 1#5).ty == .f && t.pc == 0x0102#16) = true := by
  decide

/-- LDIF2 r1, N (R183) -/
theorem test_step_ldif2Long :
    goesTo (at0 0x0100#16 [] [(0x0100#16, 0x807B#16), (0x0101#16, 0x0001#16)])
      (fun t => (t.reg 1#5).ty == .f2 && t.pc == 0x0102#16) = true := by
  decide

/-- fLDF r1: the residue is written, D is not (R232) -/
theorem test_step_fldf :
    goesTo (at0 0x0100#16 [(1#5, ⟨0x2000#16, .u, 0#2⟩)] [(0x0100#16, 0x704B#16), (0x2000#16, 0x0001#16)])
      (fun t => (t.reg 28#5).ty == .f && t.reg 1#5 == ⟨0x2000#16, .u, 0#2⟩ && t.pc == 0x0101#16) = true := by
  decide

/-- fLDF2 r1 (R233) -/
theorem test_step_fldf2 :
    goesTo (at0 0x0100#16 [(1#5, ⟨0x2000#16, .u, 0#2⟩)] [(0x0100#16, 0x784B#16), (0x2000#16, 0x0001#16)])
      (fun t => (t.reg 28#5).ty == .f2 && t.reg 1#5 == ⟨0x2000#16, .u, 0#2⟩ && t.pc == 0x0101#16) = true := by
  decide

/-- CVTF2 r1 (R239) -/
theorem test_step_cvtf2 :
    goesTo (at0 0x0100#16 [(1#5, ⟨0x0001#16, .u, 0#2⟩)] [(0x0100#16, 0xF84B#16)])
      (fun t => (t.reg 1#5).ty == .f2 && t.pc == 0x0101#16) = true := by
  decide

/-! ## Witnesses: for every statement with hypotheses a state and operands that meet them -/

/-- The state of the witnesses: values of every type at the ends of their ranges, memory at 0x2000, a value on port 2. -/
def w0 : State :=
  { at0 0x0100#16
      [(1#5, ⟨0x0001#16, .u, 0#2⟩), (2#5, ⟨0xFFFF#16, .u, 0#2⟩), (3#5, ⟨0x8000#16, .s, 0#2⟩),
        (4#5, ⟨0xFFFF#16, .s, 0#2⟩), (5#5, ⟨0x7FFF#16, .s, 0#2⟩), (6#5, ⟨0x3C00#16, .f, 1#2⟩),
        (7#5, ⟨0x0001#16, .f2, 3#2⟩), (9#5, ⟨0x0000#16, .s, 0#2⟩), (10#5, ⟨0x2000#16, .u, 0#2⟩),
        (11#5, ⟨0x3000#16, .u, 0#2⟩)]
      [(0x0100#16, 0x1045#16), (0x2000#16, 0x1234#16), (0x2001#16, 0xFFFD#16), (0xFFFF#16, 0x0007#16),
        (0x0000#16, 0x0008#16)] with
    inputs := [(3#5, 0x0005#16), (2#5, 0xBEEF#16)] }

theorem wit_UndefinedEncodingsTrap :
    ([0x0002#16, 0xFFFE#16, 0x8000#16].all fun w => !w.getLsbD 0 &&
      !([0x0000#16, 0x0040#16, 0x0080#16, 0x00C0#16].contains w)) = true ∧
    ([0x400B#16, 0xDFCB#16].all fun w => w.extractLsb' 0 6 == 0b001011#6 &&
      [0x08#5, 0x1B#5].contains (w.extractLsb' 11 5)) = true ∧
    Instr.undefinedBit0 0x0002#16 ∈ [Instr.functUnused08 1#5, .undefinedBit0 0x0002#16] := by decide

theorem wit_PcAsDestinationTraps :
    (dField (.mul 31#5 1#5) = some pcSel ∧ mayWritePc (.mul 31#5 1#5) = false) ∧
    (dField (.insrt 31#5 0x0000#16) = some pcSel ∧ mayWritePc (.insrt 31#5 0x0000#16) = false) ∧
    (dField (.cvtf2 31#5) = some pcSel ∧ mayWritePc (.cvtf2 31#5) = false) := by decide

theorem wit_TypesThatDifferTrap : (w0.reg 1#5).ty ≠ (w0.reg 3#5).ty ∧ (w0.reg 31#5).ty ≠ (w0.reg 3#5).ty := by decide

theorem wit_InGivesThePortsValue :
    ((2#5).msb = false ∧ w0.inputs = [(3#5, 0x0005#16)] ++ (2#5, 0xBEEF#16) :: [] ∧
      ∀ p ∈ [((3#5, 0x0005#16) : BitVec 5 × Word)], p.1 ≠ 2#5) ∧
    ((15#5).msb = false ∧ ∀ p ∈ w0.inputs, p.1 ≠ 15#5) ∧
    ((0b10001#5).msb = true ∧ 0b10001#5 ≠ 0b11111#5) :=
  ⟨⟨rfl, rfl, by simp⟩, ⟨rfl, by simp [w0]⟩, rfl, by decide⟩

theorem wit_OutIsARecordedEvent : (0b11110#5 : BitVec 5) ≠ 0b11111#5 ∧ (0#5 : BitVec 5) ≠ 0b11111#5 := by decide

theorem wit_LdtLoadsDataAndTags :
    (w0.memRead 0x2000#16 = .ok 0x1234#16 ∧ w0.memRead (0x2000#16 + 1#16) = .ok 0xFFFD#16) ∧
    (w0.memRead 0xFFFF#16 = .ok 0x0007#16 ∧ w0.memRead (0xFFFF#16 + 1#16) = .ok 0x0008#16) :=
  ⟨⟨rfl, rfl⟩, rfl, rfl⟩

theorem wit_UnreadableOperandsFault :
    (5#5 ≠ pcSel ∧ w0.memRead 0x3000#16 = .error (.uninitialisedMemory 0x3000#16)) ∧
    (w0.memRead 0x2001#16 = .ok 0xFFFD#16 ∧
      w0.memRead (0x2001#16 + 1#16) = .error (.uninitialisedMemory 0x2002#16)) ∧
    (11#5 ≠ pcSel ∧ w0.memRead (w0.reg 11#5).data = .error (.uninitialisedMemory 0x3000#16)) :=
  ⟨⟨by decide, rfl⟩, ⟨rfl, rfl⟩, by decide, rfl⟩

theorem wit_SttStoresDataAndTags :
    Params.memPresent 0xFFFF#16 = true ∧ Params.memPresent (0xFFFF#16 + 1#16) = true := by decide

theorem wit_SttThenLdtRestoresTheRegister : 6#5 ≠ pcSel ∧ 7#5 ≠ pcSel ∧
    Params.memPresent 0xFFFF#16 = true ∧ Params.memPresent (0xFFFF#16 + 1#16) = true := by decide

theorem wit_TagWordLayout :
    (0xFFFD#16 : Word).extractLsb' 0 4 = (tagWord ⟨0x0000#16, .s, 3#2⟩).extractLsb' 0 4 := by decide

theorem wit_UnwrittenHalfwordsFault : Params.memPresent 0x3000#16 = true ∧
    Memory.read w0.mem (byteAddr 0x3000#16) = none ∧ Memory.read w0.mem (byteAddr 0x3000#16 + 1) = none ∧
    ({ w0 with pc := 0x3000#16 } : State).pc = 0x3000#16 := by decide

/-- EncodedShort, in the statements of branches, immediates and loads: n is not the escape. -/
theorem wit_EncodedShort : (0b01111#5 : BitVec 5) ≠ 0b10000#5 ∧ (0b10001#5 : BitVec 5) ≠ 0b10000#5 := by decide

theorem wit_AddUnsignedResult : (w0.reg 1#5).ty = .u ∧
    AluForm .add .addiShort .addiLong w0 1#5 (.add 1#5 2#5) 1 0xFFFF#16 ∧
    AluForm .add .addiShort .addiLong w0 1#5 (.addiShort 1#5 0b01111#5) 1 0x000F#16 ∧
    AluForm .add .addiShort .addiLong w0 1#5 (.addiLong 1#5 0xFFFF#16) 2 0xFFFF#16 ∧
    (w0.reg 31#5).ty = .u ∧ AluForm .add .addiShort .addiLong w0 31#5 (.addiShort 31#5 0b10001#5) 1 0xFFF1#16 :=
  ⟨rfl, .inl ⟨2#5, rfl, rfl, rfl, rfl⟩, .inr (.inl ⟨_, rfl, rfl, by decide⟩), .inr (.inr ⟨_, rfl, rfl, rfl⟩), rfl,
    .inr (.inl ⟨_, rfl, rfl, by decide⟩)⟩

theorem wit_AddSignedResult : (w0.reg 5#5).ty = .s ∧
    AluForm .add .addiShort .addiLong w0 5#5 (.add 5#5 5#5) 1 0x7FFF#16 ∧
    AluForm .add .addiShort .addiLong w0 3#5 (.add 3#5 3#5) 1 0x8000#16 :=
  ⟨rfl, .inl ⟨5#5, rfl, rfl, rfl, rfl⟩, .inl ⟨3#5, rfl, rfl, rfl, rfl⟩⟩

theorem wit_SubUnsignedResult : (w0.reg 2#5).ty = .u ∧
    AluForm .sub .subiShort .subiLong w0 2#5 (.sub 2#5 1#5) 1 0x0001#16 ∧
    AluForm .sub .subiShort .subiLong w0 2#5 (.subiLong 2#5 0x0000#16) 2 0x0000#16 :=
  ⟨rfl, .inl ⟨1#5, rfl, rfl, rfl, rfl⟩, .inr (.inr ⟨_, rfl, rfl, rfl⟩)⟩

theorem wit_SubSignedResult : (w0.reg 3#5).ty = .s ∧
    AluForm .sub .subiShort .subiLong w0 3#5 (.sub 3#5 5#5) 1 0x7FFF#16 ∧
    AluForm .sub .subiShort .subiLong w0 3#5 (.subiShort 3#5 0b11111#5) 1 0xFFFF#16 :=
  ⟨rfl, .inl ⟨5#5, rfl, rfl, rfl, rfl⟩, .inr (.inl ⟨_, rfl, rfl, by decide⟩)⟩

theorem wit_MulGivesTheExactProduct :
    ((w0.reg 2#5).ty = .u ∧ AluForm .mul .muliShort .muliLong w0 2#5 (.mul 2#5 2#5) 1 0xFFFF#16) ∧
    ((w0.reg 3#5).ty = .s ∧ AluForm .mul .muliShort .muliLong w0 3#5 (.muliLong 3#5 0x8000#16) 2 0x8000#16) :=
  ⟨⟨rfl, .inl ⟨2#5, rfl, rfl, rfl, rfl⟩⟩, rfl, .inr (.inr ⟨_, rfl, rfl, rfl⟩)⟩

theorem wit_DivUnsignedResult : (w0.reg 2#5).ty = .u ∧ (0x0001#16 : Word) ≠ 0x0000#16 ∧
    AluForm .div .diviShort .diviLong w0 2#5 (.div 2#5 1#5) 1 0x0001#16 :=
  ⟨rfl, by decide, .inl ⟨1#5, rfl, rfl, rfl, rfl⟩⟩

theorem wit_DivSignedResult :
    ((w0.reg 9#5).ty = .s ∧ AluForm .div .diviShort .diviLong w0 9#5 (.diviShort 9#5 1#5) 1 0x0001#16 ∧
      0 ≤ (w0.reg 9#5).data.toInt ∧ 0 < (0x0001#16 : Word).toInt) ∧
    ((w0.reg 3#5).ty = .s ∧ AluForm .div .diviShort .diviLong w0 3#5 (.diviShort 3#5 1#5) 1 0x0001#16 ∧
      (0x0001#16 : Word) ≠ 0x0000#16 ∧ (0x0001#16 : Word).toInt ∣ (w0.reg 3#5).data.toInt ∧
      ¬((w0.reg 3#5).data = 0x8000#16 ∧ (0x0001#16 : Word) = 0xFFFF#16)) :=
  ⟨⟨rfl, .inr (.inl ⟨_, rfl, rfl, by decide⟩), by decide, by decide⟩, rfl, .inr (.inl ⟨_, rfl, rfl, by decide⟩),
    by decide, by decide, by decide⟩

theorem wit_DivOpenCornersComplete :
    ((w0.reg 2#5).ty = .u ∧ AluForm .div .diviShort .diviLong w0 2#5 (.diviShort 2#5 0#5) 1 0x0000#16) ∧
    ((w0.reg 3#5).ty = .s ∧ AluForm .div .diviShort .diviLong w0 3#5 (.diviShort 3#5 0#5) 1 0x0000#16) ∧
    ((w0.reg 4#5).ty = .s ∧ AluForm .div .diviShort .diviLong w0 4#5 (.diviShort 4#5 2#5) 1 0x0002#16 ∧
      (w0.reg 4#5).data.toInt < 0 ∧ ¬(0x0002#16 : Word).toInt ∣ (w0.reg 4#5).data.toInt) ∧
    ((w0.reg 3#5).data = 0x8000#16 ∧
      AluForm .div .diviShort .diviLong w0 3#5 (.diviShort 3#5 0b11111#5) 1 0xFFFF#16) :=
  ⟨⟨rfl, .inr (.inl ⟨_, rfl, rfl, by decide⟩)⟩, ⟨rfl, .inr (.inl ⟨_, rfl, rfl, by decide⟩)⟩,
    ⟨rfl, .inr (.inl ⟨_, rfl, rfl, by decide⟩), by decide, by decide⟩, rfl, .inr (.inl ⟨_, rfl, rfl, by decide⟩)⟩

theorem wit_ImmediateFormsAgreeWithRegisterForms :
    (w0.reg 3#5).ty.isFloat = false ∧ (w0.reg 4#5).ty = (w0.reg 3#5).ty ∧
    (w0.reg 4#5).data = (0b11111#5 : BitVec 5).signExtend 16 ∧ (w0.reg 4#5).data = 0xFFFF#16 ∧
    ((Instr.xoriLong 3#5 0xFFFF#16, Instr.xor 3#5 4#5) : Instr × Instr) ∈
      [(.addiLong 3#5 0xFFFF#16, .add 3#5 4#5), (.xoriLong 3#5 0xFFFF#16, .xor 3#5 4#5)] := by decide

theorem wit_LogicOnImmediates :
    (∃ n : BitVec 5, Instr.andiShort 1#5 0b10001#5 = .andiShort 1#5 n ∧ (0xFFF1#16 : Word) = n.signExtend 16) ∧
    (∃ N : Word, Instr.oriLong 1#5 0xFFFF#16 = .oriLong 1#5 N ∧ 0xFFFF#16 = N) :=
  ⟨⟨_, rfl, by decide⟩, _, rfl, rfl⟩

theorem wit_CmpPutsDMinusSIntoResidue :
    ((w0.reg 3#5).ty = (w0.reg 4#5).ty ∧ (w0.reg 3#5).ty.isFloat = false) ∧
    (w0.reg 1#5).ty ≠ (w0.reg 3#5).ty ∧ (w0.reg 6#5).ty.isFloat = true := by decide

theorem wit_CmpiPutsIMinusDIntoResidue :
    (∃ n : BitVec 5, Instr.cmpiShort 3#5 0b10001#5 = .cmpiShort 3#5 n ∧ (0xFFF1#16 : Word) = n.signExtend 16) ∧
    (∃ N : Word, Instr.cmpiLong 6#5 0x0000#16 = .cmpiLong 6#5 N ∧ 0x0000#16 = N) ∧
    (w0.reg 3#5).ty.isFloat = false ∧ (w0.reg 6#5).ty.isFloat = true :=
  ⟨⟨_, rfl, by decide⟩, ⟨_, rfl, rfl⟩, rfl, rfl⟩

theorem wit_ShiftMultipliesByAPowerOfTwo :
    ((w0.reg 3#5).ty.isFloat = false ∧ (w0.reg 3#5).ty = .s) ∧ ((w0.reg 2#5).ty.isFloat = false ∧ (w0.reg 2#5).ty = .u) ∧
    0 ≤ (0b00000#5 : BitVec 5).toInt ∧ 0 ≤ (0b01111#5 : BitVec 5).toInt ∧ (0b11111#5 : BitVec 5).toInt < 0 ∧
    (0b10001#5 : BitVec 5).toInt < 0 := by decide

/-- Descriptors of width 16, of width 1 at bit 15, of a field past bit 15, with a reserved bit, with uu = F. -/
theorem wit_ExtractPutsTheFieldIntoResidue : 1#5 ≠ pcSel ∧
    ((0x4000#16 : Word).extractLsb' 10 4 = 0#4 ∧ (0x4000#16 : Word).extractLsb' 4 2 = 0#2 ∧
      (0x4000#16 : Word).extractLsb' 6 4 = 0#4 ∧ ((0x4000#16 : Word).extractLsb' 0 4).toNat + 16 ≤ 16 ∧
      (0x4000#16 : Word).getLsbD 15 = false) ∧
    ((0x004F#16 : Word).extractLsb' 10 4 = 0#4 ∧ (0x004F#16 : Word).extractLsb' 4 2 = 0#2 ∧
      ((0x004F#16 : Word).extractLsb' 0 4).toNat + ((0x004F#16 : Word).extractLsb' 6 4).toNat = 16 ∧
      (0x004F#16 : Word).getLsbD 15 = false) ∧
    ¬((0x008F#16 : Word).extractLsb' 10 4 = 0#4 ∧ (0x008F#16 : Word).extractLsb' 4 2 = 0#2 ∧
      ((0x008F#16 : Word).extractLsb' 0 4).toNat + ((0x008F#16 : Word).extractLsb' 6 4).toNat ≤ 16) ∧
    ¬((0x0410#16 : Word).extractLsb' 10 4 = 0#4) ∧
    ((0x804F#16 : Word).extractLsb' 10 4 = 0#4 ∧ (0x804F#16 : Word).extractLsb' 4 2 = 0#2 ∧
      (0x804F#16 : Word).getLsbD 15 = true) := by decide

/-- The same descriptors serve INSRT, with any uu. -/
theorem wit_InsertPutsResidueBitsIntoTheField : 28#5 ≠ pcSel ∧
    ((0xC04F#16 : Word).extractLsb' 10 4 = 0#4 ∧ (0xC04F#16 : Word).extractLsb' 4 2 = 0#2 ∧
      ((0xC04F#16 : Word).extractLsb' 0 4).toNat + ((0xC04F#16 : Word).extractLsb' 6 4).toNat = 16) ∧
    ¬((0x0001#16 : Word).extractLsb' 10 4 = 0#4 ∧ (0x0001#16 : Word).extractLsb' 4 2 = 0#2 ∧
      ((0x0001#16 : Word).extractLsb' 0 4).toNat + 16 ≤ 16) := by decide

theorem wit_InsertAfterExtractLeavesD : 1#5 ≠ pcSel ∧ 1#5 ≠ resSel ∧ (0x410C#16 : Word).extractLsb' 10 4 = 0#4 ∧
    (0x410C#16 : Word).extractLsb' 4 2 = 0#2 ∧
    ((0x410C#16 : Word).extractLsb' 0 4).toNat +
      (if (0x410C#16 : Word).extractLsb' 6 4 = 0#4 then 16 else ((0x410C#16 : Word).extractLsb' 6 4).toNat) ≤ 16 ∧
    (0x410C#16 : Word).getLsbD 15 = false := by decide

theorem wit_FloatLoadsAndConversionsComplete : w0.memRead (w0.reg 10#5).data = .ok 0x1234#16 := rfl

theorem wit_LoadReadsMemoryAtS :
    w0.memRead (w0.reg 10#5).data = .ok 0x1234#16 ∧ (w0.reg 1#5).ty.isFloat = false ∧
    (w0.reg 31#5).ty.isFloat = false ∧ (w0.reg 6#5).ty.isFloat = true := ⟨rfl, rfl, rfl, rfl⟩

theorem wit_StoresWriteOneHalfword : Params.memPresent (w0.reg 2#5).data = true ∧
    Params.memPresent (w0.reg 31#5).data = true ∧ (w0.reg 1#5).ty.isFloat = false ∧
    (w0.reg resSel).ty.isFloat = false := by decide

theorem wit_TypedLoadsWriteTheResidue : w0.memRead (w0.reg 10#5).data = .ok 0x1234#16 ∧
    w0.memRead (w0.reg 31#5).data = .ok 0x1045#16 := ⟨rfl, rfl⟩

theorem wit_TypeCoercionsSetTheTypeTag : ((Instr.setf2 1#5, DType.f2) : Instr × DType) ∈
    [(.setu 1#5, .u), (.sets 1#5, .s), (.setf 1#5, .f), (.setf2 1#5, .f2)] := by decide

theorem wit_AbsoluteValuesOfIntegers : (w0.reg 2#5).ty = .u ∧
    ((w0.reg 4#5).ty = .s ∧ (w0.reg 4#5).data ≠ 0x8000#16) ∧ (w0.reg 3#5).ty = .s := by decide

theorem wit_IntegerConversionsKeepTheData : (w0.reg 2#5).ty = .u ∧
    ((w0.reg 9#5).ty = .s ∧ 0 ≤ (w0.reg 9#5).data.toInt) ∧ (w0.reg 3#5).ty = .s ∧
    ((w0.reg 1#5).ty = .u ∧ (w0.reg 1#5).data.toNat ≤ 32767) := by decide

theorem wit_FloatArithmeticCompletes : (w0.reg 6#5).ty.isFloat = true ∧
    AluForm .add .addiShort .addiLong w0 6#5 (.add 6#5 6#5) 1 0x3C00#16 ∧
    AluForm .div .diviShort .diviLong w0 6#5 (.diviLong 6#5 0x0000#16) 2 0x0000#16 ∧
    (∃ n : BitVec 5, Instr.shft 6#5 0b10001#5 = .shft 6#5 n ∧ 1 = 1) :=
  ⟨rfl, .inl ⟨6#5, rfl, rfl, rfl, rfl⟩, .inr (.inr ⟨_, rfl, rfl, rfl⟩), _, rfl, rfl⟩

theorem wit_OpenOneOperandValuesComplete : 3#5 ≠ pcSel ∧
    ((w0.reg 3#5).ty = .s ∧ (w0.reg 3#5).data = 0x8000#16) ∧ (w0.reg 7#5).ty.isFloat = true ∧ (w0.reg 1#5).ty = .u ∧
    ((w0.reg 4#5).ty = .s ∧ (w0.reg 4#5).data.toInt < 0) ∧
    ((w0.reg 2#5).ty = .u ∧ 32767 < (w0.reg 2#5).data.toNat) := by decide

theorem wit_StepRunsTheDecodedInstruction :
    (w0.memRead w0.pc = .ok 0x1045#16 ∧ isLong 0x1045#16 = false ∧
      decode (bytesOfWord 0x1045#16) = .ok (.add 1#5 2#5)) ∧
    (isLong 0x8141#16 = true ∧ decode (bytesOfWord 0x8141#16 ++ bytesOfWord 0x2000#16) = .ok (.ldt 5#5 0x2000#16) ∧
      (at0 0xFFFF#16 [] [(0xFFFF#16, 0x8141#16), (0x0000#16, 0x2000#16)]).memRead (0xFFFF#16 + 1#16) =
        .ok 0x2000#16) := ⟨⟨rfl, rfl, rfl⟩, rfl, rfl, rfl⟩

theorem wit_DecodeOfEncodeIsTheInstruction : (Instr.addiShort 31#5 0b10001#5).wf = true ∧
    (Instr.cmpiLong 0#5 0xFFFF#16).wf = true ∧ (Instr.undefinedBit0 0xFFFE#16).wf = true := by decide

theorem wit_StepKeepsMemoryCanonical : w0.mem.wf = true ∧ goesTo w0 (fun t => t.pc == 0x0101#16) = true := by decide

theorem wit_OnlyStoresChangeMemory : stores (.mov 1#5 2#5) = false ∧
    ∃ t, exec (.mov 1#5 2#5) w0 = .next t := ⟨rfl, _, rfl⟩

theorem wit_SaveChangesByTrapsAndOutAlone : ∃ t, exec (.outPort 1#5 0b11111#5) w0 = .next t := ⟨_, rfl⟩

theorem wit_ResidueChangesByItsWritersAlone : writesResidue (.mov 1#5 28#5) = false ∧
    dField (.mov 1#5 28#5) ≠ some resSel ∧ ∃ t, exec (.mov 1#5 28#5) w0 = .next t := ⟨rfl, by decide, _, rfl⟩

end Sys2Proof.Tests
end

section
/-! PROOFS. State, ports and residue (10_state.md): what loads, fetches, IN and OUT do, the Illegal trap of D = 31, and
everything that an instruction which goes on can change. -/

namespace Sys2Proof.Machine

open Safety

/-! ## Unreadable half-words (R45, log 2) -/

/-- A half-word is read only if both its bytes have been written. -/
theorem Memory.readHalf_eq_none {m : Memory} {a : Word}
    (h : Memory.read m (byteAddr a) = none ∨ Memory.read m (byteAddr a + 1) = none) : Memory.readHalf m a = none := by
  unfold Memory.readHalf
  obtain h | h := h
  · simp [h]
  · cases Memory.read m (byteAddr a) <;> simp [h]

/-- Where there is memory that holds no half-word, a load faults by name. -/
theorem State.memRead_unwritten {s : State} {a : Word} (hp : Params.memPresent a = true)
    (h : Memory.readHalf s.mem a = none) : s.memRead a = .error (.uninitialisedMemory a) := by
  simp [State.memRead, hp, h]

/-- A step whose first half-word cannot be read stops with the fault of that read. -/
theorem step_fault {s : State} {e : Fault} (h : s.memRead s.pc = .error e) : step s = .fault e := by
  have hf : s.fetch = .error e := by simp [State.fetch, h]
  simp [step, hf]

/-- LD stops with the fault of its read, for D = 31 too. -/
theorem execLd_fault {s : State} {d r : Sel} {e : Fault} (h : s.memRead (s.reg r).data = .error e) :
    execLd d r s = .fault e := by simp [execLd, h]

/-- LDT reads N first. -/
theorem execLdt_fault_data {s : State} {d : Sel} {N : Word} {e : Fault} (hd : d ≠ pcSel)
    (h : s.memRead N = .error e) : execLdt d N s = .fault e := by simp [execLdt, illegalPc, hd, h]

/-- LDT reads the tag word at N + 1 after the data at N. -/
theorem execLdt_fault_tags {s : State} {d : Sel} {N v : Word} {e : Fault} (hd : d ≠ pcSel)
    (hN : s.memRead N = .ok v) (h : s.memRead (N + 1#16) = .error e) : execLdt d N s = .fault e := by
  simp [execLdt, illegalPc, hd, hN, h]

/-! ## Ports (R38 to R41) -/

/-- Everything IN does: D receives what the port gives; `b` is `s` after the read, but for the draw counter. -/
theorem execInPort_completes {s b u : State} {n : BitVec 5} {v : Word} (h : s.portIn n = (v, u))
    (hr : u.regs = b.regs) (hp : u.pc = b.pc) (hb : RestSame b u) (d : Sel) :
    Completes (.inPort d n) s (fun t => Wrote b t 1 d ⟨v, .u, 0#2⟩ none) := by
  refine ⟨(u.advance 1).setReg d ⟨v, .u, 0#2⟩, ?_, State.wrote_setReg hr hp hb 1 d _⟩
  change execInPort d n s = _
  simp only [execInPort, h]

/-- Everything OUT does: the Illegal trap for D = 31, else the port receives the data of D. -/
theorem execOutPort_completes (s : State) (d : Sel) (n : BitVec 5) {P : State → Prop}
    (h : P ((s.portOut n (s.reg d).data).advance 1)) :
    Completes (.outPort d n) s (fun t => UnlessPc d s t (P t)) :=
  illegalPc_next fun _ => ⟨_, rfl, h⟩

/-! ## D = 31 (R35) -/

/-- With D = 31 the Illegal trap comes before the rest of the instruction (R270). -/
theorem illegalPc_pcSel (s : State) (body : Result) : illegalPc pcSel s body = .next (s.takeTrap .illegal) := by
  simp [illegalPc]

/-- Every 16-bit instruction that is not in R30's list tests D = 31 before anything else. -/
theorem exec_eq_illegalPc {i : Instr} {d : Sel} (hd : dField i = some d) (hm : mayWritePc i = false) (s : State) :
    ∃ body, exec i s = illegalPc d s body := by
  cases i with
  | trap | bkpt | algnw | algnc | undefinedBit0 _ | functUnused08 _ | functUnused09 _ | functUnused0A _
  | functUnused0B _ | functUnused12 _ | functUnused13 _ | functUnused14 _ | functUnused15 _ | functUnused16 _
  | functUnused17 _ | functUnused18 _ | functUnused19 _ | functUnused1A _ | functUnused1B _ =>
    simp [dField] at hd
  | add _ _ | sub _ _ | ld _ _ | mov _ _ | inPort _ _ | ldiuShort _ _ | ldiuLong _ _ | addiShort _ _ | addiLong _ _
  | subiShort _ _ | subiLong _ _ =>
    simp [mayWritePc] at hm
  | _ =>
    cases hd
    exact ⟨_, rfl⟩

/-! ## What an instruction that goes on can change -/

/-- If the result `r` is a next state, `P` holds of it. -/
def Ensures (r : Result) (P : State → Prop) : Prop := ∀ t, r = .next t → P t

/-- The frame of the instruction `i`: the save register; every register but D and, for the instructions of R34's table,
the residue register; and, unless `i` is a store, every byte of memory. -/
structure KeepsFrame (i : Instr) (s t : State) : Prop where
  save : t.save = s.save
  regs : ∀ j, j ≠ pcSel → dField i ≠ some j → (j = resSel → writesResidue i = false) → t.reg j = s.reg j
  mem : stores i = false → ∀ b, Memory.read t.mem b = Memory.read s.mem b

/-- How an instruction that goes on can have changed the machine. -/
inductive Effect (i : Instr) (s t : State) : Prop where
  /-- a trap was entered -/
  | trapped (k : TrapKind) (h : Trapped s t (Params.trapLocation k))
  /-- the instruction is OUT -/
  | sent (d : Sel) (n : BitVec 5) (hi : i = .outPort d n) (ht : t = (s.portOut n (s.reg d).data).advance 1)
  /-- any other case -/
  | kept (h : KeepsFrame i s t)

/-- A write of D, and of the residue register by an instruction of R34's table, is inside the frame. -/
theorem KeepsFrame.of_wrote {i : Instr} {s t : State} {len : Nat} {d : Sel} {v : RegVal} {res : Option RegVal}
    (h : Wrote s t len d v res) (hd : dField i = some d ∨ d = resSel ∧ writesResidue i = true)
    (hres : res = none ∨ writesResidue i = true) : KeepsFrame i s t where
  save := h.rest.save
  regs j hj hjd hjr := by
    have hne : j ≠ d := by
      rintro rfl
      obtain hd | ⟨rfl, hw⟩ := hd
      · exact hjd hd
      · simp [hjr rfl] at hw
    rw [h.regs j hj, if_neg hne]
    split
    next e =>
      subst e
      obtain rfl | hw := hres
      · rfl
      · simp [hjr rfl] at hw
    next => rfl
  mem _ := h.rest.mem

/-- A transfer of control is inside the frame. -/
theorem KeepsFrame.of_jumped {i : Instr} {s t : State} {w : Word} (h : Jumped s t w) : KeepsFrame i s t where
  save := h.rest.save
  regs j hj _ _ := h.regs j hj
  mem _ := h.rest.mem

/-- A store is inside the frame of an instruction that stores. -/
theorem KeepsFrame.of_memWrite {i : Instr} {s u t : State} {a v : Word} (h : u.memWrite a v = .ok t)
    (hi : stores i = true) (hu : KeepsFrame i s u) : KeepsFrame i s t := by
  obtain ⟨-, rfl⟩ := State.memWrite_ok h
  refine ⟨hu.save, fun j hj hjd hjr => ?_, by simp [hi]⟩
  exact (State.reg_eq_of_regs (s := u) rfl hj).trans (hu.regs j hj hjd hjr)

/-- Going on to the next instruction is inside the frame. -/
theorem KeepsFrame.advance {i : Instr} {s u : State} (hu : KeepsFrame i s u) (len : Nat) :
    KeepsFrame i s (u.advance len) where
  save := hu.save
  regs j hj hjd hjr := (State.reg_advance u len hj).trans (hu.regs j hj hjd hjr)
  mem := hu.mem

/-- A state with the registers, the save register and the memory of `s` is inside the frame. -/
theorem KeepsFrame.of_eq {i : Instr} {s u : State} (hr : u.regs = s.regs) (hs : u.save = s.save)
    (hm : u.mem = s.mem) : KeepsFrame i s u where
  save := hs
  regs _ hj _ _ := State.reg_eq_of_regs hr hj
  mem _ b := by rw [hm]

/-- Two updates inside the frame, one after the other. -/
theorem KeepsFrame.trans {i : Instr} {s u t : State} (h : KeepsFrame i s u) (h' : KeepsFrame i u t) :
    KeepsFrame i s t where
  save := h'.save.trans h.save
  regs j hj hjd hjr := (h'.regs j hj hjd hjr).trans (h.regs j hj hjd hjr)
  mem hi b := (h'.mem hi b).trans (h.mem hi b)

/-- ST and fST: the conversion to memory format and the store stay inside the frame. -/
theorem KeepsFrame.of_store {i : Instr} {s t : State} {r : RegVal} {a v : Word}
    (h : (s.toMemory r).2.memWrite a v = .ok t) (hi : stores i = true) : KeepsFrame i s (t.advance 1) :=
  (KeepsFrame.of_memWrite h hi (.of_eq (by simp) (by simp) (by simp))).advance 1

section Results

variable {i : Instr} {s : State}

/-! Each shared operation, for every instruction `i` whose frame allows what the operation writes. -/

theorem Ensures.next {t : State} {P : State → Prop} (h : P t) : Ensures (.next t) P := by
  rintro _ ⟨⟩
  exact h

theorem Ensures.fault (e : Fault) (P : State → Prop) : Ensures (.fault e) P := by
  rintro _ ⟨⟩

theorem Ensures.refused (e : Refusal) (P : State → Prop) : Ensures (.refused e) P := by
  rintro _ ⟨⟩

/-- What is known of the next state of a result, from what is known to follow. -/
theorem Ensures.of_exists {r : Result} {P Q : State → Prop} (h : ∃ t, r = .next t ∧ P t) (hPQ : ∀ t, P t → Q t) :
    Ensures r Q := by
  obtain ⟨t, rfl, ht⟩ := h
  exact .next (hPQ t ht)

theorem ensures_takeTrap (k : TrapKind) : Ensures (.next (s.takeTrap k)) (Effect i s) :=
  .next (.trapped k (s.trapped_takeTrap k))

/-- The test of D = 31 adds a trap. -/
theorem ensures_illegalPc {d : Sel} {body : Result} (h : Ensures body (Effect i s)) :
    Ensures (illegalPc d s body) (Effect i s) := by
  unfold illegalPc
  split
  · exact ensures_takeTrap .illegal
  · exact h

/-- The test of the types adds a trap. -/
theorem ensures_sameType {d r : Sel} {body : Result} (h : Ensures body (Effect i s)) :
    Ensures (s.sameType d r body) (Effect i s) := by
  unfold State.sameType
  split
  · exact h
  · exact ensures_takeTrap _

/-- From a law of an operation that may not have D = 31. -/
theorem ensures_unlessPc {r : Result} {d : Sel} {P : State → Prop} (h : ∃ t, r = .next t ∧ UnlessPc d s t (P t))
    (hP : ∀ t, P t → KeepsFrame i s t) : Ensures r (Effect i s) := by
  refine .of_exists h fun t ht => ?_
  unfold UnlessPc at ht
  split at ht
  · exact .trapped .illegal ht
  · exact .kept (hP t ht)

/-- From a law that says D is written and nothing else. -/
theorem ensures_dest {r : Result} {len : Nat} {d : Sel} {v : RegVal} (hd : dField i = some d)
    (h : ∃ t, r = .next t ∧ Wrote s t len d v none) : Ensures r (Effect i s) :=
  .of_exists h fun _ ht => .kept (.of_wrote ht (.inl hd) (.inl rfl))

/-- From a law that says the residue register is written and nothing else. -/
theorem ensures_residue {r : Result} {len : Nat} {v : RegVal} (hw : writesResidue i = true)
    (h : ∃ t, r = .next t ∧ Wrote s t len resSel v none) : Ensures r (Effect i s) :=
  .of_exists h fun _ ht => .kept (.of_wrote ht (.inr ⟨rfl, hw⟩) (.inl rfl))

/-- From a law that says D and the residue register are written and nothing else. -/
theorem ensures_both {r : Result} {len : Nat} {d : Sel} {v : RegVal} {w : Option RegVal} (hd : dField i = some d)
    (hw : writesResidue i = true) (h : ∃ t, r = .next t ∧ Wrote s t len d v w) : Ensures r (Effect i s) :=
  .of_exists h fun _ ht => .kept (.of_wrote ht (.inl hd) (.inr hw))

theorem ensures_setReg {len : Nat} {d : Sel} {v : RegVal} (hd : dField i = some d) :
    Ensures (.next ((s.advance len).setReg d v)) (Effect i s) :=
  ensures_dest hd ⟨_, rfl, State.wrote_setReg rfl rfl (.refl s) len d v⟩

theorem ensures_arith {op : ArithOp} {len : Nat} {d : Sel} {a b : Word} (hd : dField i = some d)
    (hw : writesResidue i = true) : Ensures (s.arith op len d a b) (Effect i s) := by
  obtain ⟨t, v, w, h, ht⟩ := s.arith_next op len d a b
  exact ensures_both hd hw ⟨t, h, ht⟩

theorem ensures_setData {len : Nat} {d : Sel} {v : Word} (hd : dField i = some d) :
    Ensures (s.setData len d v) (Effect i s) :=
  ensures_dest hd (s.setData_next len d v)

theorem ensures_freeD {d : Sel} (hd : dField i = some d) : Ensures (s.freeD d) (Effect i s) :=
  ensures_dest hd (s.freeD_next d)

theorem ensures_setResidue {len : Nat} {v : RegVal} (hw : writesResidue i = true) :
    Ensures (s.setResidue len v) (Effect i s) :=
  ensures_residue hw (State.setResidue_next rfl rfl (.refl s) len v)

theorem ensures_cmpImm {len : Nat} {d : Sel} {I : Word} (hw : writesResidue i = true) :
    Ensures (s.cmpImm len d I) (Effect i s) := by
  cases h : (s.reg d).ty.isFloat
  · exact ensures_residue hw (State.cmpImm_integer h len I)
  · exact ensures_residue hw (State.cmpImm_float h len I)

theorem ensures_branchIf {len : Nat} {d : Sel} {test : Word → Bool} {target : Word} :
    Ensures (s.branchIf len d test target) (Effect i s) :=
  ensures_unlessPc (s.branchIf_next len d test target) fun _ ht => .of_jumped ht

theorem ensures_call {len : Nat} {d : Sel} {target : Word} (hd : dField i = some d) :
    Ensures (s.call len d target) (Effect i s) := by
  refine ensures_unlessPc (s.call_next len d target) fun t ht => ?_
  obtain ⟨-, -, hregs, hrest⟩ := ht
  refine ⟨hrest.save, fun j hj hjd _ => hregs j hj ?_, fun _ => hrest.mem⟩
  rintro rfl
  exact hjd hd

theorem ensures_setType {d : Sel} {k : DType} (hd : dField i = some d) : Ensures (s.setType d k) (Effect i s) :=
  ensures_unlessPc (s.setType_next d k) fun _ ht => .of_wrote ht (.inl hd) (.inl rfl)

theorem ensures_convert {n : Nat} {d : Sel} {v : RegVal} {k : DType} (hd : dField i = some d)
    (hw : writesResidue i = true) : Ensures (s.convert d n v k) (Effect i s) :=
  ensures_both hd hw (s.convert_next d n v k)

theorem ensures_loadImm {len : Nat} {d : Sel} {I : Word} {k : DType} (hd : dField i = some d) :
    Ensures (s.loadImm len d I k) (Effect i s) :=
  ensures_dest hd (s.loadImm_next len d I k)

theorem ensures_loadImmFloat {len : Nat} {d : Sel} {k : DType} (hd : dField i = some d) :
    Ensures (s.loadImmFloat len d k) (Effect i s) :=
  ensures_dest hd (s.loadImmFloat_next len d k)

theorem ensures_loadResidue {d : Sel} {k : DType} (hw : writesResidue i = true) :
    Ensures (s.loadResidue d k) (Effect i s) := by
  refine ensures_illegalPc ?_
  split
  · exact .fault _ _
  · exact ensures_residue hw (State.setResidue_next (by simp) (by simp) (s.toRegister_rest _ k) 1 _)

end Results

/-! ## The instructions whose meaning is more than one shared operation -/

section Instructions

variable (s : State) (d r : Sel) (n : BitVec 5) (N : Word)

theorem execCmp_effect : Ensures (execCmp d r s) (Effect (.cmp d r) s) := by
  refine ensures_illegalPc ?_
  split
  · exact ensures_setResidue rfl
  · exact ensures_residue rfl (State.setResidue_next (s := s) (u := s.draw 1) rfl rfl (s.draw_rest 1) 1 _)

theorem execLd_effect : Ensures (execLd d r s) (Effect (.ld d r) s) := by
  cases h : s.memRead (s.reg r).data with
  | error e =>
    rw [execLd_fault h]
    exact .fault e _
  | ok v => exact ensures_dest rfl (execLd_next h)

theorem execSt_effect : Ensures (execSt d r s) (Effect (.st d r) s) := by
  refine ensures_illegalPc ?_
  split
  · exact .fault _ _
  next h => exact .next (.kept (.of_store h rfl))

theorem execFst_effect : Ensures (execFst d s) (Effect (.fst d) s) := by
  refine ensures_illegalPc ?_
  split
  · exact .fault _ _
  next h => exact .next (.kept (.of_store h rfl))

theorem execStt_effect : Ensures (execStt d N s) (Effect (.stt d N) s) := by
  refine ensures_illegalPc ?_
  split
  · exact .fault _ _
  next s1 h1 =>
    split
    · exact .fault _ _
    next s2 h2 =>
      have k1 : KeepsFrame (.stt d N) s s1 := .of_memWrite h1 rfl (.of_eq rfl rfl rfl)
      exact .next (.kept ((KeepsFrame.of_memWrite h2 rfl k1).advance 2))

theorem execLdt_effect : Ensures (execLdt d N s) (Effect (.ldt d N) s) := by
  refine ensures_illegalPc ?_
  split
  · exact .fault _ _
  · split
    · exact .fault _ _
    · exact ensures_setReg rfl

theorem execInPort_effect : Ensures (execInPort d n s) (Effect (.inPort d n) s) := by
  have hread : KeepsFrame (.inPort d n) s (s.portIn n).2 := .of_eq (by simp) (by simp) (by simp)
  exact .next (.kept (hread.trans (.of_wrote (State.wrote_setReg rfl rfl (.refl _) 1 d _) (.inl rfl) (.inl rfl))))

theorem execExtrct_effect : Ensures (execExtrct d N s) (Effect (.extrct d N) s) := by
  refine ensures_illegalPc ?_
  split
  · exact .refused _ _
  · split
    · exact .refused _ _
    · exact ensures_setResidue rfl

theorem execInsrt_effect : Ensures (execInsrt d N s) (Effect (.insrt d N) s) := by
  refine ensures_illegalPc ?_
  split
  · exact .refused _ _
  · exact ensures_setData rfl

theorem execAbs_effect : Ensures (execAbs d s) (Effect (.abs d) s) := by
  refine ensures_illegalPc ?_
  split
  · exact ensures_setData rfl
  · split
    · exact ensures_freeD rfl
    · exact ensures_setData rfl
  · exact ensures_freeD rfl
  · exact ensures_freeD rfl

theorem execNabs_effect : Ensures (execNabs d s) (Effect (.nabs d) s) := by
  refine ensures_illegalPc ?_
  split
  · exact ensures_setData rfl
  · exact ensures_freeD rfl
  · exact ensures_freeD rfl
  · exact ensures_freeD rfl

theorem execCvtu_effect : Ensures (execCvtu d s) (Effect (.cvtu d) s) := by
  refine ensures_illegalPc ?_
  split
  · exact ensures_convert rfl rfl
  · split <;> exact ensures_convert rfl rfl
  · exact ensures_convert rfl rfl
  · exact ensures_convert rfl rfl

theorem execCvts_effect : Ensures (execCvts d s) (Effect (.cvts d) s) := by
  refine ensures_illegalPc ?_
  split
  · exact ensures_convert rfl rfl
  · split <;> exact ensures_convert rfl rfl
  · exact ensures_convert rfl rfl
  · exact ensures_convert rfl rfl

end Instructions

/-- Everything an instruction that goes on can have changed: it entered a trap, it is OUT, or it stayed inside its
frame. -/
theorem exec_effect (i : Instr) (s : State) : Ensures (exec i s) (Effect i s) := by
  cases i with
  | trap => exact ensures_takeTrap .trap
  | bkpt => exact ensures_takeTrap .brkpt
  | undefinedBit0 _ | functUnused08 _ | functUnused09 _ | functUnused0A _ | functUnused0B _ | functUnused12 _
  | functUnused13 _ | functUnused14 _ | functUnused15 _ | functUnused16 _ | functUnused17 _ | functUnused18 _
  | functUnused19 _ | functUnused1A _ | functUnused1B _ => exact ensures_takeTrap .undefined
  | algnw | algnc => exact .next (.kept (.of_jumped (s.jumped_jump _)))
  | add d r | sub d r => exact ensures_sameType (ensures_arith rfl rfl)
  | mul d r | div d r => exact ensures_illegalPc (ensures_sameType (ensures_arith rfl rfl))
  | addiShort d _ | addiLong d _ | subiShort d _ | subiLong d _ => exact ensures_arith rfl rfl
  | muliShort d _ | muliLong d _ | diviShort d _ | diviLong d _ => exact ensures_illegalPc (ensures_arith rfl rfl)
  | and d _ | or d _ | xor d _ | andiShort d _ | andiLong d _ | oriShort d _ | oriLong d _ | xoriShort d _
  | xoriLong d _ => exact ensures_illegalPc (ensures_setData rfl)
  | cmp d r => exact execCmp_effect s d r
  | cmpiShort d _ | cmpiLong d _ => exact ensures_illegalPc (ensures_cmpImm rfl)
  | ld d r => exact execLd_effect s d r
  | st d r => exact execSt_effect s d r
  | mov d r => exact ensures_setReg rfl
  | inPort d n => exact execInPort_effect s d n
  | outPort d n => exact ensures_illegalPc (.next (.sent d n rfl rfl))
  | ldt d N => exact execLdt_effect s d N
  | stt d N => exact execStt_effect s d N
  | bsrShort d _ | bsrLong d _ => exact ensures_call rfl
  | brzShort _ _ | brzLong _ _ | brnzShort _ _ | brnzLong _ _ | brpShort _ _ | brpLong _ _ | brmShort _ _
  | brmLong _ _ => exact ensures_branchIf
  | shft d n => exact ensures_unlessPc (execShft_next s d n) fun _ ht => .of_wrote ht (.inl rfl) (.inr rfl)
  | extrct d N => exact execExtrct_effect s d N
  | insrt d N => exact execInsrt_effect s d N
  | ldiuShort d _ | ldiuLong d _ => exact ensures_loadImm rfl
  | ldisShort d _ | ldisLong d _ => exact ensures_illegalPc (ensures_loadImm rfl)
  | ldifShort d _ | ldifLong d _ | ldif2Short d _ | ldif2Long d _ =>
    exact ensures_illegalPc (ensures_loadImmFloat rfl)
  | setu d | sets d | setf d | setf2 d => exact ensures_setType rfl
  | abs d => exact execAbs_effect s d
  | nabs d => exact execNabs_effect s d
  | tag d => exact ensures_illegalPc (ensures_setResidue rfl)
  | itag d => exact ensures_illegalPc (ensures_setReg rfl)
  | fldu _ | flds _ | fldf _ | fldf2 _ => exact ensures_loadResidue rfl
  | fst d => exact execFst_effect s d
  | cvtu d => exact execCvtu_effect s d
  | cvts d => exact execCvts_effect s d
  | cvtf d | cvtf2 d => exact ensures_illegalPc (ensures_convert rfl rfl)

/-- OUT to another port leaves the save register. -/
theorem State.portOut_save {n : BitVec 5} (h : n ≠ Params.savePort) (s : State) (v : Word) :
    (s.portOut n v).save = s.save := by rw [State.portOut_event h]

/-- A trap leads to one of the four locations (60_exceptions.md R261). -/
theorem trapLocation_mem (k : TrapKind) :
    Params.trapLocation k ∈ [0x0020#16, 0x0040#16, 0x0060#16, 0x0080#16] := by
  cases k <;> simp [Params.trapLocation]

/-! ## The obligations -/

/-- Settles O17: a half-word of which a byte is missing is read by no load and no fetch. -/
theorem unwrittenHalfwordsFault : Obligations.UnwrittenHalfwordsFault := by
  intro s a hp hb
  have hread : s.memRead a = .error (.uninitialisedMemory a) := State.memRead_unwritten hp (Memory.readHalf_eq_none hb)
  refine ⟨hread, ?_⟩
  rintro rfl
  exact step_fault hread

/-- Settles O5: the test of D = 31 comes first in each of these instructions. -/
theorem pcAsDestinationTraps : Obligations.PcAsDestinationTraps := by
  intro i s hd hm
  obtain ⟨body, hbody⟩ := exec_eq_illegalPc hd hm s
  exact ⟨s.takeTrap .illegal, hbody.trans (illegalPc_pcSel s body), s.trapped_takeTrap .illegal⟩

/-- Settles O10, by the laws of IN and OUT at the save port. -/
theorem savePortReadsAndWritesSave : Obligations.SavePortReadsAndWritesSave := by
  intro s d
  refine ⟨execInPort_completes s.portIn_savePort rfl rfl (.refl s) d, execOutPort_completes s d _ ?_⟩
  have hport : s.portOut 0b11111#5 (s.reg d).data = { s with save := (s.reg d).data } := s.portOut_savePort _
  rw [hport]
  exact ⟨rfl, rfl, fun _ hj => State.reg_eq_of_regs (s := s) (t := State.advance _ 1) rfl hj, fun _ => rfl, rfl, rfl⟩

/-- Settles O11: a listed value of an external port, an open one, and an internal port. -/
theorem inGivesThePortsValue : Obligations.InGivesThePortsValue := by
  intro s d n
  refine ⟨fun hn before after v hlist hfirst => ?_, fun hn hnone => ?_, fun hn hsave => ?_⟩
  · have htake : takeInput n s.inputs = some (v, before ++ after) := by rw [hlist, takeInput_first hfirst]
    exact execInPort_completes (State.portIn_input hn htake) rfl rfl (.refl _) d
  · exact ⟨_, execInPort_completes (b := { s with events := .input n _ :: s.events })
      (State.portIn_open hn (takeInput_none hnone)) rfl rfl ⟨rfl, fun _ => rfl, rfl, rfl⟩ d⟩
  · exact ⟨_, execInPort_completes (b := s) (State.portIn_internal hn hsave s) rfl rfl (s.draw_rest 1) d⟩

/-- Settles O12: the only change of OUT but the PC is the new event. -/
theorem outIsARecordedEvent : Obligations.OutIsARecordedEvent := by
  intro s d n hn
  refine execOutPort_completes s d n ?_
  rw [State.portOut_event hn]
  exact State.jumped_advance _ 1

/-- Settles O45, by the fault laws of LD, LDT and the fLD functions. -/
theorem unreadableOperandsFault : Obligations.UnreadableOperandsFault := by
  intro s d e
  refine ⟨fun r h => execLd_fault h, fun N hd h => ?_, fun hd h => ?_⟩
  · obtain h | ⟨⟨v, hv⟩, h⟩ := h
    · exact execLdt_fault_data hd h
    · exact execLdt_fault_tags hd hv h
  · exact ⟨State.loadResidue_fault hd h .u, State.loadResidue_fault hd h .s, State.loadResidue_fault hd h .f,
      State.loadResidue_fault hd h .f2⟩

/-- Settles O59, from the three effects an instruction can have. -/
theorem saveChangesByTrapsAndOutAlone : Obligations.SaveChangesByTrapsAndOutAlone := by
  intro i s t h
  obtain ⟨k, ht⟩ | ⟨d, n, rfl, rfl⟩ | hkept := exec_effect i s t h
  · refine .inr (.inl ?_)
    rw [ht.pc]
    exact ⟨ht, trapLocation_mem k⟩
  · by_cases hn : n = Params.savePort
    · subst hn
      exact .inr (.inr ⟨d, rfl, by rw [State.portOut_savePort]; rfl⟩)
    · exact .inl (State.portOut_save hn s _)
  · exact .inl hkept.save

/-- Settles O60, from the three effects an instruction can have. -/
theorem residueChangesByItsWritersAlone : Obligations.ResidueChangesByItsWritersAlone := by
  intro i s t hw hd h
  have hres : resSel ≠ pcSel := by decide
  obtain ⟨k, ht⟩ | ⟨d, n, rfl, rfl⟩ | hkept := exec_effect i s t h
  · exact ht.regs resSel hres
  · exact State.reg_eq_of_regs (by simp) hres
  · exact hkept.regs resSel hres hd fun _ => hw

end Sys2Proof.Machine
end

section
/-! PROOFS. Memory (20_memory.md): the canonical form of the memory list holds at reset and every step keeps it, and
no instruction but a store changes a byte.  `KeepsFrame.mem` compares memories byte by byte, which does not determine
the list, so the canonical form is followed through the operations on its own. -/

namespace Sys2Proof.Machine

open Safety

/-! ## The canonical form after each shared operation -/

/-- If the result is a next state, its memory has the canonical form. -/
def EndsCanonical (r : Result) : Prop := Ensures r fun t => t.mem.wf = true

@[simp] theorem endsCanonical_next {t : State} : EndsCanonical (.next t) ↔ t.mem.wf = true :=
  ⟨fun h => h t rfl, fun h => .next h⟩

@[simp] theorem endsCanonical_fault (e : Fault) : EndsCanonical (.fault e) := .fault e _

@[simp] theorem endsCanonical_refused (e : Refusal) : EndsCanonical (.refused e) := .refused e _

section Operations

variable {s : State} (hs : s.mem.wf = true)

include hs

/-- The entry of a trap leaves memory alone. -/
theorem endsCanonical_takeTrap (k : TrapKind) : EndsCanonical (.next (s.takeTrap k)) := by simpa using hs

/-- A write of a register leaves memory alone. -/
theorem endsCanonical_setReg (len : Nat) (d : Sel) (v : RegVal) :
    EndsCanonical (.next ((s.advance len).setReg d v)) := by simpa using hs

/-- The test of D = 31 adds a trap. -/
theorem endsCanonical_illegalPc {d : Sel} {body : Result} (hb : EndsCanonical body) :
    EndsCanonical (illegalPc d s body) := by
  unfold illegalPc
  split
  · exact endsCanonical_takeTrap hs .illegal
  · exact hb

/-- The test of the types adds a trap. -/
theorem endsCanonical_sameType {d r : Sel} {body : Result} (hb : EndsCanonical body) :
    EndsCanonical (s.sameType d r body) := by
  unfold State.sameType
  split
  · exact hb
  · exact endsCanonical_takeTrap hs _

theorem endsCanonical_arith (op : ArithOp) (len : Nat) (d : Sel) (a b : Word) :
    EndsCanonical (s.arith op len d a b) := by
  unfold State.arith
  dsimp only
  split <;> simpa [State.floatResult] using hs

theorem endsCanonical_setData (len : Nat) (d : Sel) (v : Word) : EndsCanonical (s.setData len d v) :=
  endsCanonical_setReg hs len d _

theorem endsCanonical_freeD (d : Sel) : EndsCanonical (s.freeD d) :=
  endsCanonical_setData (s := s.draw 1) hs 1 d _

theorem endsCanonical_setResidue (len : Nat) (v : RegVal) : EndsCanonical (s.setResidue len v) :=
  endsCanonical_setReg hs len resSel v

theorem endsCanonical_cmpImm (len : Nat) (d : Sel) (I : Word) : EndsCanonical (s.cmpImm len d I) := by
  unfold State.cmpImm
  split
  · exact endsCanonical_setResidue (s := s.draw 1) hs len _
  · exact endsCanonical_setResidue hs len _

theorem endsCanonical_branchIf (len : Nat) (d : Sel) (test : Word → Bool) (target : Word) :
    EndsCanonical (s.branchIf len d test target) := by
  refine endsCanonical_illegalPc hs ?_
  split <;> simpa using hs

theorem endsCanonical_call (len : Nat) (d : Sel) (target : Word) : EndsCanonical (s.call len d target) :=
  endsCanonical_illegalPc hs (by simpa using hs)

theorem endsCanonical_setType (d : Sel) (k : DType) : EndsCanonical (s.setType d k) :=
  endsCanonical_illegalPc hs (endsCanonical_setReg hs 1 d _)

theorem endsCanonical_convert (d : Sel) (n : Nat) (v : RegVal) (k : DType) : EndsCanonical (s.convert d n v k) := by
  simpa [State.convert] using hs

theorem endsCanonical_loadImmFloat (len : Nat) (d : Sel) (k : DType) : EndsCanonical (s.loadImmFloat len d k) :=
  endsCanonical_setReg (s := s.draw 1) hs len d _

theorem endsCanonical_loadResidue (d : Sel) (k : DType) : EndsCanonical (s.loadResidue d k) := by
  refine endsCanonical_illegalPc hs ?_
  split
  · simp
  · exact endsCanonical_setResidue (by simpa using hs) 1 _

/-- The store of a register, after its conversion to memory format, writes a half-word to a canonical memory. -/
theorem endsCanonical_store {r : RegVal} {a v : Word} {t : State} (h : (s.toMemory r).2.memWrite a v = .ok t)
    (len : Nat) : EndsCanonical (.next (t.advance len)) := by
  simpa using State.memWrite_wf (by simpa using hs) h

/-! ## The instructions whose meaning is more than one shared operation -/

theorem execCmp_endsCanonical (d r : Sel) : EndsCanonical (execCmp d r s) := by
  refine endsCanonical_illegalPc hs ?_
  split
  · exact endsCanonical_setResidue hs 1 _
  · exact endsCanonical_setResidue (s := s.draw 1) hs 1 _

theorem execLd_endsCanonical (d r : Sel) : EndsCanonical (execLd d r s) := by
  unfold execLd
  split
  · simp
  · exact endsCanonical_setReg (by simpa using hs) 1 d _

theorem execLdt_endsCanonical (d : Sel) (N : Word) : EndsCanonical (execLdt d N s) := by
  refine endsCanonical_illegalPc hs ?_
  split
  · simp
  · split
    · simp
    · exact endsCanonical_setReg hs 2 d _

theorem execSt_endsCanonical (d r : Sel) : EndsCanonical (execSt d r s) := by
  refine endsCanonical_illegalPc hs ?_
  split
  · simp
  next h => exact endsCanonical_store hs h 1

theorem execFst_endsCanonical (d : Sel) : EndsCanonical (execFst d s) := by
  refine endsCanonical_illegalPc hs ?_
  split
  · simp
  next h => exact endsCanonical_store hs h 1

/-- STT stores twice. -/
theorem execStt_endsCanonical (d : Sel) (N : Word) : EndsCanonical (execStt d N s) := by
  refine endsCanonical_illegalPc hs ?_
  split
  · simp
  next s1 h1 =>
    split
    · simp
    next s2 h2 =>
      have hs1 : s1.mem.wf = true := State.memWrite_wf hs h1
      simpa using State.memWrite_wf hs1 h2

theorem execShft_endsCanonical (d : Sel) (n : BitVec 5) : EndsCanonical (execShft d n s) :=
  endsCanonical_illegalPc hs (by simpa using hs)

theorem execExtrct_endsCanonical (d : Sel) (N : Word) : EndsCanonical (execExtrct d N s) := by
  refine endsCanonical_illegalPc hs ?_
  split
  · simp
  · split
    · simp
    · exact endsCanonical_setResidue hs 2 _

theorem execInsrt_endsCanonical (d : Sel) (N : Word) : EndsCanonical (execInsrt d N s) := by
  refine endsCanonical_illegalPc hs ?_
  split
  · simp
  · exact endsCanonical_setData hs 2 d _

theorem execAbs_endsCanonical (d : Sel) : EndsCanonical (execAbs d s) := by
  refine endsCanonical_illegalPc hs ?_
  split
  · exact endsCanonical_setData hs 1 d _
  · split
    · exact endsCanonical_freeD hs d
    · exact endsCanonical_setData hs 1 d _
  · exact endsCanonical_freeD hs d
  · exact endsCanonical_freeD hs d

theorem execNabs_endsCanonical (d : Sel) : EndsCanonical (execNabs d s) := by
  refine endsCanonical_illegalPc hs ?_
  split
  · exact endsCanonical_setData hs 1 d _
  · exact endsCanonical_freeD hs d
  · exact endsCanonical_freeD hs d
  · exact endsCanonical_freeD hs d

theorem execCvtu_endsCanonical (d : Sel) : EndsCanonical (execCvtu d s) := by
  refine endsCanonical_illegalPc hs ?_
  split
  · exact endsCanonical_convert hs d 0 _ _
  · split <;> exact endsCanonical_convert hs d _ _ _
  · exact endsCanonical_convert hs d 1 _ _
  · exact endsCanonical_convert hs d 1 _ _

theorem execCvts_endsCanonical (d : Sel) : EndsCanonical (execCvts d s) := by
  refine endsCanonical_illegalPc hs ?_
  split
  · exact endsCanonical_convert hs d 0 _ _
  · split <;> exact endsCanonical_convert hs d _ _ _
  · exact endsCanonical_convert hs d 1 _ _
  · exact endsCanonical_convert hs d 1 _ _

/-- Every instruction keeps the canonical form: only ST, STT and fST touch the list, and they write half-words. -/
theorem exec_endsCanonical (i : Instr) : EndsCanonical (exec i s) := by
  cases i with
  | trap => exact endsCanonical_takeTrap hs .trap
  | bkpt => exact endsCanonical_takeTrap hs .brkpt
  | undefinedBit0 _ | functUnused08 _ | functUnused09 _ | functUnused0A _ | functUnused0B _ | functUnused12 _
  | functUnused13 _ | functUnused14 _ | functUnused15 _ | functUnused16 _ | functUnused17 _ | functUnused18 _
  | functUnused19 _ | functUnused1A _ | functUnused1B _ => exact endsCanonical_takeTrap hs .undefined
  | algnw | algnc => exact endsCanonical_next.2 hs
  | add _ _ | sub _ _ => exact endsCanonical_sameType hs (endsCanonical_arith hs _ _ _ _ _)
  | mul _ _ | div _ _ =>
    exact endsCanonical_illegalPc hs (endsCanonical_sameType hs (endsCanonical_arith hs _ _ _ _ _))
  | addiShort _ _ | addiLong _ _ | subiShort _ _ | subiLong _ _ => exact endsCanonical_arith hs _ _ _ _ _
  | muliShort _ _ | muliLong _ _ | diviShort _ _ | diviLong _ _ =>
    exact endsCanonical_illegalPc hs (endsCanonical_arith hs _ _ _ _ _)
  | and _ _ | or _ _ | xor _ _ | andiShort _ _ | andiLong _ _ | oriShort _ _ | oriLong _ _ | xoriShort _ _
  | xoriLong _ _ => exact endsCanonical_illegalPc hs (endsCanonical_setData hs _ _ _)
  | cmp d r => exact execCmp_endsCanonical hs d r
  | cmpiShort _ _ | cmpiLong _ _ => exact endsCanonical_illegalPc hs (endsCanonical_cmpImm hs _ _ _)
  | ld d r => exact execLd_endsCanonical hs d r
  | st d r => exact execSt_endsCanonical hs d r
  | fst d => exact execFst_endsCanonical hs d
  | stt d N => exact execStt_endsCanonical hs d N
  | mov d _ => exact endsCanonical_setReg hs 1 d _
  | inPort d _ => exact endsCanonical_setReg (by simpa using hs) 1 d _
  | outPort _ _ => exact endsCanonical_illegalPc hs (by simpa using hs)
  | ldt d N => exact execLdt_endsCanonical hs d N
  | bsrShort _ _ | bsrLong _ _ => exact endsCanonical_call hs _ _ _
  | brzShort _ _ | brzLong _ _ | brnzShort _ _ | brnzLong _ _ | brpShort _ _ | brpLong _ _ | brmShort _ _
  | brmLong _ _ => exact endsCanonical_branchIf hs _ _ _ _
  | shft d n => exact execShft_endsCanonical hs d n
  | extrct d N => exact execExtrct_endsCanonical hs d N
  | insrt d N => exact execInsrt_endsCanonical hs d N
  | ldiuShort _ _ | ldiuLong _ _ => exact endsCanonical_setReg hs _ _ _
  | ldisShort _ _ | ldisLong _ _ => exact endsCanonical_illegalPc hs (endsCanonical_setReg hs _ _ _)
  | ldifShort _ _ | ldifLong _ _ | ldif2Short _ _ | ldif2Long _ _ =>
    exact endsCanonical_illegalPc hs (endsCanonical_loadImmFloat hs _ _ _)
  | setu _ | sets _ | setf _ | setf2 _ => exact endsCanonical_setType hs _ _
  | abs d => exact execAbs_endsCanonical hs d
  | nabs d => exact execNabs_endsCanonical hs d
  | tag _ => exact endsCanonical_illegalPc hs (endsCanonical_setResidue hs 1 _)
  | itag d => exact endsCanonical_illegalPc hs (endsCanonical_setReg hs 1 d _)
  | fldu _ | flds _ | fldf _ | fldf2 _ => exact endsCanonical_loadResidue hs _ _
  | cvtu d => exact execCvtu_endsCanonical hs d
  | cvts d => exact execCvts_endsCanonical hs d
  | cvtf _ | cvtf2 _ => exact endsCanonical_illegalPc hs (endsCanonical_convert hs _ _ _ _)

end Operations

/-- Everything a step that goes on does: it executes the instruction that it fetched. -/
theorem step_next {s t : State} (h : step s = .next t) : ∃ i, s.fetch = .ok i ∧ exec i s = .next t := by
  unfold step at h
  split at h
  · cases h
  next i hi => exact ⟨i, hi, h⟩

/-- The memory that lists no byte has the canonical form. -/
theorem Memory.wf_nil : Memory.wf [] = true := rfl

/-! ## The obligations -/

/-- Settles O57: the fetch reads memory and every instruction keeps its form. -/
theorem stepKeepsMemoryCanonical : Obligations.StepKeepsMemoryCanonical := by
  intro s t hs h
  obtain ⟨i, -, hi⟩ := step_next h
  exact exec_endsCanonical hs i t hi

/-- Settles O58, from the three effects an instruction can have. -/
theorem onlyStoresChangeMemory : Obligations.OnlyStoresChangeMemory := by
  intro i s t hstores h b
  obtain ⟨k, ht⟩ | ⟨d, n, rfl, rfl⟩ | hkept := exec_effect i s t h
  · exact ht.mem b
  · simp
  · exact hkept.mem hstores b

/-- Settles O9: the memory of the reset state lists nothing. -/
theorem resetMemoryIsCanonical : Obligations.ResetMemoryIsCanonical := Memory.wf_nil

end Sys2Proof.Machine
end

section
/-! PROOFS. The encodings (30_encoding.md): the op-code map as a relation between codes and instructions, what decoder
and encoder make of each of its rows, and the round trip in both directions. -/

namespace Sys2Proof

open Machine Machine.Safety

/-! ## The op-code map (R73 to R76, R80, R82, R84) -/

/-- The op-codes whose bits 15:11 are always S, each with its instruction (R73, R76). -/
inductive RegisterRow : BitVec 6 → (Sel → Sel → Instr) → Prop
  | add : RegisterRow 0x05#6 .add
  | sub : RegisterRow 0x0D#6 .sub
  | ld : RegisterRow 0x13#6 .ld
  | mul : RegisterRow 0x15#6 .mul
  | mov : RegisterRow 0x19#6 .mov
  | st : RegisterRow 0x1B#6 .st
  | div : RegisterRow 0x1D#6 .div
  | and : RegisterRow 0x25#6 .and
  | or : RegisterRow 0x2D#6 .or
  | xor : RegisterRow 0x35#6 .xor
  | cmp : RegisterRow 0x3D#6 .cmp

/-- The op-codes with an immediate operand, each with its short and its long form (R74, R75). -/
inductive ImmediateRow : BitVec 6 → (Sel → BitVec 5 → Instr) → (Sel → Word → Instr) → Prop
  | inLdt : ImmediateRow 0x01#6 .inPort .ldt
  | shftExtrct : ImmediateRow 0x03#6 .shft .extrct
  | addi : ImmediateRow 0x07#6 .addiShort .addiLong
  | outStt : ImmediateRow 0x09#6 .outPort .stt
  | subi : ImmediateRow 0x0F#6 .subiShort .subiLong
  | bsr : ImmediateRow 0x11#6 .bsrShort .bsrLong
  | muli : ImmediateRow 0x17#6 .muliShort .muliLong
  | divi : ImmediateRow 0x1F#6 .diviShort .diviLong
  | brz : ImmediateRow 0x21#6 .brzShort .brzLong
  | ldiu : ImmediateRow 0x23#6 .ldiuShort .ldiuLong
  | andi : ImmediateRow 0x27#6 .andiShort .andiLong
  | brnz : ImmediateRow 0x29#6 .brnzShort .brnzLong
  | ldis : ImmediateRow 0x2B#6 .ldisShort .ldisLong
  | ori : ImmediateRow 0x2F#6 .oriShort .oriLong
  | brp : ImmediateRow 0x31#6 .brpShort .brpLong
  | ldif : ImmediateRow 0x33#6 .ldifShort .ldifLong
  | xori : ImmediateRow 0x37#6 .xoriShort .xoriLong
  | brm : ImmediateRow 0x39#6 .brmShort .brmLong
  | ldif2 : ImmediateRow 0x3B#6 .ldif2Short .ldif2Long
  | cmpi : ImmediateRow 0x3F#6 .cmpiShort .cmpiLong

/-- The FUNCT function codes that have no meaning (R92, R240). -/
inductive UnusedFunctRow : BitVec 5 → (Sel → Instr) → Prop
  | code08 : UnusedFunctRow 0x08#5 .functUnused08
  | code09 : UnusedFunctRow 0x09#5 .functUnused09
  | code0A : UnusedFunctRow 0x0A#5 .functUnused0A
  | code0B : UnusedFunctRow 0x0B#5 .functUnused0B
  | code12 : UnusedFunctRow 0x12#5 .functUnused12
  | code13 : UnusedFunctRow 0x13#5 .functUnused13
  | code14 : UnusedFunctRow 0x14#5 .functUnused14
  | code15 : UnusedFunctRow 0x15#5 .functUnused15
  | code16 : UnusedFunctRow 0x16#5 .functUnused16
  | code17 : UnusedFunctRow 0x17#5 .functUnused17
  | code18 : UnusedFunctRow 0x18#5 .functUnused18
  | code19 : UnusedFunctRow 0x19#5 .functUnused19
  | code1A : UnusedFunctRow 0x1A#5 .functUnused1A
  | code1B : UnusedFunctRow 0x1B#5 .functUnused1B

/-- The FUNCT function codes but the escape, which is INSRT, each with its function (R84). -/
inductive FunctRow : BitVec 5 → (Sel → Instr) → Prop
  | setu : FunctRow 0x00#5 .setu
  | sets : FunctRow 0x01#5 .sets
  | setf : FunctRow 0x02#5 .setf
  | setf2 : FunctRow 0x03#5 .setf2
  | abs : FunctRow 0x04#5 .abs
  | nabs : FunctRow 0x05#5 .nabs
  | tag : FunctRow 0x06#5 .tag
  | itag : FunctRow 0x07#5 .itag
  | fldu : FunctRow 0x0C#5 .fldu
  | flds : FunctRow 0x0D#5 .flds
  | fldf : FunctRow 0x0E#5 .fldf
  | fldf2 : FunctRow 0x0F#5 .fldf2
  | fst : FunctRow 0x11#5 .fst
  | cvtu : FunctRow 0x1C#5 .cvtu
  | cvts : FunctRow 0x1D#5 .cvts
  | cvtf : FunctRow 0x1E#5 .cvtf
  | cvtf2 : FunctRow 0x1F#5 .cvtf2
  | unused {code : BitVec 5} {fn : Sel → Instr} (row : UnusedFunctRow code fn) : FunctRow code fn

/-- The op-code map as a whole: what the op-code alone says about a first half-word (R80, R82, R88). -/
inductive OpcodeClass (op : BitVec 6) : Prop
  | register {reg : Sel → Sel → Instr} (row : RegisterRow op reg)
  | immediate {short : Sel → BitVec 5 → Instr} {long : Sel → Word → Instr} (row : ImmediateRow op short long)
  | funct (h : op = 0x0B#6)
  | eightBit (h : op.getLsbD 0 = false)

/-- The op-codes with bit 0 = 1. -/
theorem odd_opcode_mem : ∀ op : BitVec 6, op.getLsbD 0 = true →
    op ∈ [0x01#6, 0x03#6, 0x05#6, 0x07#6, 0x09#6, 0x0B#6, 0x0D#6, 0x0F#6, 0x11#6, 0x13#6, 0x15#6, 0x17#6, 0x19#6,
      0x1B#6, 0x1D#6, 0x1F#6, 0x21#6, 0x23#6, 0x25#6, 0x27#6, 0x29#6, 0x2B#6, 0x2D#6, 0x2F#6, 0x31#6, 0x33#6, 0x35#6,
      0x37#6, 0x39#6, 0x3B#6, 0x3D#6, 0x3F#6] := by decide

/-- Every op-code has its place in the map (R80). -/
theorem opcodeClass (op : BitVec 6) : OpcodeClass op := by
  cases hodd : op.getLsbD 0 with
  | false => exact .eightBit hodd
  | true =>
    have hmem := odd_opcode_mem op hodd
    simp only [List.mem_cons, List.not_mem_nil, or_false] at hmem
    rcases hmem with rfl | rfl | rfl | rfl | rfl | rfl | rfl | rfl | rfl | rfl | rfl | rfl | rfl | rfl | rfl | rfl |
      rfl | rfl | rfl | rfl | rfl | rfl | rfl | rfl | rfl | rfl | rfl | rfl | rfl | rfl | rfl | rfl
    exacts [.immediate .inLdt, .immediate .shftExtrct, .register .add, .immediate .addi, .immediate .outStt, .funct rfl,
      .register .sub, .immediate .subi, .immediate .bsr, .register .ld, .register .mul, .immediate .muli,
      .register .mov, .register .st, .register .div, .immediate .divi, .immediate .brz, .immediate .ldiu, .register .and,
      .immediate .andi, .immediate .brnz, .immediate .ldis, .register .or, .immediate .ori, .immediate .brp,
      .immediate .ldif, .register .xor, .immediate .xori, .immediate .brm, .immediate .ldif2, .register .cmp,
      .immediate .cmpi]

/-- The fourteen codes of R92 (b). -/
def unusedCodes : List (BitVec 5) :=
  [0x08#5, 0x09#5, 0x0A#5, 0x0B#5, 0x12#5, 0x13#5, 0x14#5, 0x15#5, 0x16#5, 0x17#5, 0x18#5, 0x19#5, 0x1A#5, 0x1B#5]

/-- Each of the codes of R92 (b) has its row. -/
theorem unusedFunctRow_of_mem {code : BitVec 5} (h : code ∈ unusedCodes) : ∃ fn, UnusedFunctRow code fn := by
  simp only [unusedCodes, List.mem_cons, List.not_mem_nil, or_false] at h
  rcases h with rfl | rfl | rfl | rfl | rfl | rfl | rfl | rfl | rfl | rfl | rfl | rfl | rfl | rfl
  all_goals exact ⟨_, by constructor⟩

/-- The function codes that are neither the escape nor unused. -/
theorem used_code_mem : ∀ code : BitVec 5, code ≠ escape → code ∉ unusedCodes →
    code ∈ [0x00#5, 0x01#5, 0x02#5, 0x03#5, 0x04#5, 0x05#5, 0x06#5, 0x07#5, 0x0C#5, 0x0D#5, 0x0E#5, 0x0F#5, 0x11#5,
      0x1C#5, 0x1D#5, 0x1E#5, 0x1F#5] := by decide

/-- Every function code but the escape has a FUNCT function (R84). -/
theorem functRow {code : BitVec 5} (hesc : code ≠ escape) : ∃ fn, FunctRow code fn := by
  by_cases hunused : code ∈ unusedCodes
  · obtain ⟨fn, row⟩ := unusedFunctRow_of_mem hunused
    exact ⟨fn, .unused row⟩
  · have hmem := used_code_mem code hesc hunused
    simp only [List.mem_cons, List.not_mem_nil, or_false] at hmem
    rcases hmem with rfl | rfl | rfl | rfl | rfl | rfl | rfl | rfl | rfl | rfl | rfl | rfl | rfl | rfl | rfl | rfl | rfl
    all_goals exact ⟨_, by constructor⟩

/-! ## What decoder and encoder make of a row -/

section Rows

variable {op : BitVec 6} {code : BitVec 5} {reg : Sel → Sel → Instr} {short : Sel → BitVec 5 → Instr}
  {long : Sel → Word → Instr} {fn : Sel → Instr}

theorem RegisterRow.registerForm_eq (row : RegisterRow op reg) : registerForm op = true := by cases row <;> rfl

theorem RegisterRow.encode_eq (row : RegisterRow op reg) (d s : Sel) : encode (reg d s) = [assemble s d op] := by
  cases row <;> rfl

theorem RegisterRow.wf_eq (row : RegisterRow op reg) (d s : Sel) : (reg d s).wf = true := by cases row <;> rfl

/-- The decoder reads a register form as the map says (R73, R76). -/
theorem RegisterRow.encodedRR (row : RegisterRow op reg) : EncodedRR op reg := by
  intro d s N
  change decodeHalfwords (assemble s d op) N = reg d s
  cases row <;> simp [decodeHalfwords, opOf_assemble, dOf_assemble, fOf_assemble]

theorem RegisterRow.isLong_eq (row : RegisterRow op reg) (d s : Sel) : isLong (assemble s d op) = false := by
  simp [isLong_assemble, row.registerForm_eq]

theorem ImmediateRow.isLong_eq (row : ImmediateRow op short long) (f d : BitVec 5) :
    isLong (assemble f d op) = (f == escape) := by
  rw [isLong_assemble]
  cases row <;> rfl

theorem ImmediateRow.encode_short (row : ImmediateRow op short long) (d : Sel) (n : BitVec 5) :
    encode (short d n) = [assemble n d op] := by cases row <;> rfl

theorem ImmediateRow.encode_long (row : ImmediateRow op short long) (d : Sel) (N : Word) :
    encode (long d N) = [assemble escape d op, N] := by cases row <;> rfl

theorem ImmediateRow.wf_short (row : ImmediateRow op short long) (d : Sel) (n : BitVec 5) :
    (short d n).wf = shortImm n := by cases row <;> rfl

theorem ImmediateRow.wf_long (row : ImmediateRow op short long) (d : Sel) (N : Word) : (long d N).wf = true := by
  cases row <;> rfl

/-- The escape alone separates the two forms of an immediate op-code (R74, R75). -/
theorem ImmediateRow.decodeHalfwords_eq (row : ImmediateRow op short long) (f d : BitVec 5) (N : Word) :
    decodeHalfwords (assemble f d op) N = if f == escape then long d N else short d f := by
  cases row <;> simp only [decodeHalfwords, opOf_assemble, dOf_assemble, fOf_assemble]

theorem ImmediateRow.encodedShort (row : ImmediateRow op short long) : EncodedShort op short := by
  intro d n N hn
  have hesc : (n == escape) = false := beq_false_of_ne hn
  refine ⟨(row.decodeHalfwords_eq n d N).trans ?_, (row.isLong_eq n d).trans hesc⟩
  rw [hesc]
  rfl

theorem ImmediateRow.encodedLong (row : ImmediateRow op short long) : EncodedLong op long :=
  fun d N => ⟨row.decodeHalfwords_eq escape d N, row.isLong_eq escape d⟩

/-- Op-code 0x0B selects a FUNCT function (R84). -/
theorem decodeHalfwords_funct (f d : BitVec 5) (N : Word) :
    decodeHalfwords (assemble f d 0x0B#6) N = decodeFunct f d N := by
  simp only [decodeHalfwords, opOf_assemble, dOf_assemble, fOf_assemble]

theorem isLong_funct (f d : BitVec 5) : isLong (assemble f d 0x0B#6) = (f == escape) := by
  rw [isLong_assemble]
  rfl

/-- INSRT is the long form of FUNCT's op-code (R84). -/
theorem encodedLong_insrt : EncodedLong 0x0B#6 .insrt :=
  fun d N => ⟨decodeHalfwords_funct escape d N, isLong_funct escape d⟩

theorem UnusedFunctRow.decodeFunct_eq (row : UnusedFunctRow code fn) (d : Sel) (N : Word) :
    decodeFunct code d N = fn d := by cases row <;> rfl

/-- An unused function takes the Undefined-instruction trap (R92). -/
theorem UnusedFunctRow.exec_eq (row : UnusedFunctRow code fn) (d : Sel) (s : State) :
    exec (fn d) s = .next (s.takeTrap .undefined) := by cases row <;> rfl

theorem FunctRow.code_ne_escape (row : FunctRow code fn) : code ≠ escape := by
  cases row with
  | unused row => cases row <;> decide
  | _ => decide

theorem FunctRow.encode_eq (row : FunctRow code fn) (d : Sel) : encode (fn d) = [assemble code d 0x0B#6] := by
  cases row with
  | unused row => cases row <;> rfl
  | _ => rfl

theorem FunctRow.wf_eq (row : FunctRow code fn) (d : Sel) : (fn d).wf = true := by
  cases row with
  | unused row => cases row <;> rfl
  | _ => rfl

/-- The decoder reads a FUNCT half-word as the map says (R84). -/
theorem FunctRow.encodedFunct (row : FunctRow code fn) : EncodedFunct code fn := by
  intro d N
  refine (decodeHalfwords_funct code d N).trans ?_
  cases row with
  | unused row => exact row.decodeFunct_eq d N
  | _ => rfl

theorem FunctRow.isLong_eq (row : FunctRow code fn) (d : Sel) : isLong (assemble code d 0x0B#6) = false := by
  rw [isLong_funct, beq_false_of_ne row.code_ne_escape]

/-- A FUNCT half-word with an unused code decodes to the instruction of that code. -/
theorem UnusedFunctRow.decodeHalfwords_eq (row : UnusedFunctRow code fn) {w : Word} (hop : opOf w = 0x0B#6)
    (hcode : fOf w = code) (N : Word) : decodeHalfwords w N = fn (dOf w) := by
  rw [← assemble_fields w, hop, hcode, dOf_assemble]
  exact (FunctRow.unused row).encodedFunct (dOf w) N

end Rows

/-! ## The half-words with bit 0 = 0 (R88, R92) -/

section EightBit

variable {w : Word}

/-- Bit 0 of a half-word is bit 0 of its op-code. -/
theorem opOf_bit0 (w : Word) : (opOf w).getLsbD 0 = w.getLsbD 0 := by simp [opOf]

/-- Every row of the op-code map has bit 0 = 1. -/
theorem decodeHalfwords_eightBit (h : w.getLsbD 0 = false) (N : Word) : decodeHalfwords w N = decodeEightBit w := by
  have hop : (opOf w).getLsbD 0 = false := (opOf_bit0 w).trans h
  unfold decodeHalfwords
  split
  case h_33 => rfl
  all_goals
    next heq => exact absurd (heq ▸ hop) (by decide)

theorem isLong_eightBit (h : w.getLsbD 0 = false) : isLong w = false := by
  simp only [isLong, h, Bool.false_and]

theorem decodeEightBit_undefined (h : w ∉ [0x0000#16, 0x0040#16, 0x0080#16, 0x00C0#16]) :
    decodeEightBit w = .undefinedBit0 w := by
  simp only [List.mem_cons, List.not_mem_nil, or_false, not_or] at h
  obtain ⟨htrap, hbkpt, halgnw, halgnc⟩ := h
  simp [decodeEightBit, htrap, hbkpt, halgnw, halgnc]

theorem undefinedHalf_iff :
    undefinedHalf w = true ↔ w.getLsbD 0 = false ∧ w ∉ [0x0000#16, 0x0040#16, 0x0080#16, 0x00C0#16] := by
  simp [undefinedHalf, and_assoc]

end EightBit

/-! ## Decoding an encoding -/

section DecodeEncode

variable {i : Instr} {w N : Word}

/-- The round trip of an instruction of one half-word. -/
theorem decode_encodeBytes_short (henc : encode i = [w]) (hlen : isLong w = false) (hdec : decodeHalfwords w 0#16 = i)
    (after : List Byte) : decode (encodeBytes i ++ after) = .ok i := by
  have hbytes : encodeBytes i = bytesOfWord w := by simp [encodeBytes, henc]
  rw [hbytes, decode_short hlen, hdec]

/-- The round trip of an instruction of two half-words. -/
theorem decode_encodeBytes_long (henc : encode i = [w, N]) (hlen : isLong w = true) (hdec : decodeHalfwords w N = i)
    (after : List Byte) : decode (encodeBytes i ++ after) = .ok i := by
  have hbytes : encodeBytes i = bytesOfWord w ++ bytesOfWord N := by simp [encodeBytes, henc]
  rw [hbytes, List.append_assoc, decode_long hlen, hdec]

theorem RegisterRow.decode_encodeBytes {op : BitVec 6} {reg : Sel → Sel → Instr} (row : RegisterRow op reg)
    (d s : Sel) : ∀ after, decode (encodeBytes (reg d s) ++ after) = .ok (reg d s) :=
  decode_encodeBytes_short (row.encode_eq d s) (row.isLong_eq d s) (row.encodedRR d s _)

theorem ImmediateRow.decode_encodeBytes_short {op : BitVec 6} {short : Sel → BitVec 5 → Instr}
    {long : Sel → Word → Instr} (row : ImmediateRow op short long) (d : Sel) {n : BitVec 5}
    (hwf : (short d n).wf = true) : ∀ after, decode (encodeBytes (short d n) ++ after) = .ok (short d n) := by
  have hn : n ≠ escape := by simpa [row.wf_short, shortImm] using hwf
  obtain ⟨hdec, hlen⟩ := row.encodedShort d n 0#16 hn
  exact Sys2Proof.decode_encodeBytes_short (row.encode_short d n) hlen hdec

theorem ImmediateRow.decode_encodeBytes_long {op : BitVec 6} {short : Sel → BitVec 5 → Instr}
    {long : Sel → Word → Instr} (row : ImmediateRow op short long) (d : Sel) (N : Word) :
    ∀ after, decode (encodeBytes (long d N) ++ after) = .ok (long d N) :=
  Sys2Proof.decode_encodeBytes_long (row.encode_long d N) (row.encodedLong d N).2 (row.encodedLong d N).1

theorem FunctRow.decode_encodeBytes {code : BitVec 5} {fn : Sel → Instr} (row : FunctRow code fn) (d : Sel) :
    ∀ after, decode (encodeBytes (fn d) ++ after) = .ok (fn d) :=
  decode_encodeBytes_short (row.encode_eq d) (row.isLong_eq d) (row.encodedFunct d _)

theorem decode_encodeBytes_undefinedBit0 (hwf : undefinedHalf w = true) :
    ∀ after, decode (encodeBytes (.undefinedBit0 w) ++ after) = .ok (.undefinedBit0 w) := by
  obtain ⟨hbit, hundef⟩ := undefinedHalf_iff.mp hwf
  exact decode_encodeBytes_short rfl (isLong_eightBit hbit)
    ((decodeHalfwords_eightBit hbit _).trans (decodeEightBit_undefined hundef))

/-- Every constructor stands in one row of the op-code map. -/
theorem decode_encodeBytes (i : Instr) (hwf : i.wf = true) : ∀ after, decode (encodeBytes i ++ after) = .ok i := by
  cases i with
  | trap | bkpt | algnw | algnc => exact decode_encodeBytes_short rfl rfl rfl
  | add d s | sub d s | mul d s | div d s | and d s | or d s | xor d s | cmp d s | ld d s | st d s | mov d s =>
    exact RegisterRow.decode_encodeBytes (by constructor) d s
  | inPort d _ | outPort d _ | bsrShort d _ | brzShort d _ | brnzShort d _ | brpShort d _ | brmShort d _ | shft d _
  | ldiuShort d _ | ldisShort d _ | ldifShort d _ | ldif2Short d _ | addiShort d _ | subiShort d _ | muliShort d _
  | diviShort d _ | andiShort d _ | oriShort d _ | xoriShort d _ | cmpiShort d _ =>
    exact ImmediateRow.decode_encodeBytes_short (by constructor) d hwf
  | ldt d N | stt d N | bsrLong d N | brzLong d N | brnzLong d N | brpLong d N | brmLong d N | extrct d N | ldiuLong d N
  | ldisLong d N | ldifLong d N | ldif2Long d N | addiLong d N | subiLong d N | muliLong d N | diviLong d N
  | andiLong d N | oriLong d N | xoriLong d N | cmpiLong d N =>
    exact ImmediateRow.decode_encodeBytes_long (by constructor) d N
  | insrt d N => exact decode_encodeBytes_long rfl (encodedLong_insrt d N).2 (encodedLong_insrt d N).1
  | functUnused08 d | functUnused09 d | functUnused0A d | functUnused0B d | functUnused12 d | functUnused13 d
  | functUnused14 d | functUnused15 d | functUnused16 d | functUnused17 d | functUnused18 d | functUnused19 d
  | functUnused1A d | functUnused1B d => exact FunctRow.decode_encodeBytes (.unused (by constructor)) d
  | undefinedBit0 w => exact decode_encodeBytes_undefinedBit0 hwf
  | setu d | sets d | setf d | setf2 d | abs d | nabs d | tag d | itag d | fldu d | flds d | fldf d | fldf2 d | fst d
  | cvtu d | cvts d | cvtf d | cvtf2 d => exact FunctRow.decode_encodeBytes (by constructor) d

/-- Bytes that are the encoding of an instruction decode to it. -/
theorem decode_of_encodeBytes {bs : List Byte} (hwf : i.wf = true) (h : encodeBytes i = bs) : decode bs = .ok i := by
  rw [← h, ← List.append_nil (encodeBytes i)]
  exact decode_encodeBytes i hwf []

end DecodeEncode

/-! ## Encoding what was decoded -/

/-- What `w` and `N` decode to is well-formed and encodes to the half-words that were read. -/
def ReadsBack (w N : Word) : Prop :=
  (decodeHalfwords w N).wf = true ∧ encode (decodeHalfwords w N) = if isLong w then [w, N] else [w]

section EncodeDecode

variable {i : Instr} {w N : Word}

theorem ReadsBack.of_short (hdec : decodeHalfwords w N = i) (hlen : isLong w = false) (hwf : i.wf = true)
    (henc : encode i = [w]) : ReadsBack w N := by simp [ReadsBack, hdec, hlen, hwf, henc]

theorem ReadsBack.of_long (hdec : decodeHalfwords w N = i) (hlen : isLong w = true) (hwf : i.wf = true)
    (henc : encode i = [w, N]) : ReadsBack w N := by simp [ReadsBack, hdec, hlen, hwf, henc]

theorem RegisterRow.readsBack {op : BitVec 6} {reg : Sel → Sel → Instr} (row : RegisterRow op reg) (f d : BitVec 5)
    (N : Word) : ReadsBack (assemble f d op) N :=
  .of_short (row.encodedRR d f N) (row.isLong_eq d f) (row.wf_eq d f) (row.encode_eq d f)

theorem ImmediateRow.readsBack {op : BitVec 6} {short : Sel → BitVec 5 → Instr} {long : Sel → Word → Instr}
    (row : ImmediateRow op short long) (f d : BitVec 5) (N : Word) : ReadsBack (assemble f d op) N := by
  by_cases hf : f = escape
  · subst hf
    obtain ⟨hdec, hlen⟩ := row.encodedLong d N
    exact .of_long hdec hlen (row.wf_long d N) (row.encode_long d N)
  · obtain ⟨hdec, hlen⟩ := row.encodedShort d f N hf
    exact .of_short hdec hlen (by simpa [row.wf_short, shortImm] using hf) (row.encode_short d f)

theorem readsBack_funct (f d : BitVec 5) (N : Word) : ReadsBack (assemble f d 0x0B#6) N := by
  by_cases hf : f = escape
  · subst hf
    obtain ⟨hdec, hlen⟩ := encodedLong_insrt d N
    exact .of_long hdec hlen rfl rfl
  · obtain ⟨fn, row⟩ := functRow hf
    exact .of_short (row.encodedFunct d N) (row.isLong_eq d) (row.wf_eq d) (row.encode_eq d)

theorem readsBack_eightBit (h : w.getLsbD 0 = false) (N : Word) : ReadsBack w N := by
  have hlen := isLong_eightBit h
  have hdec := decodeHalfwords_eightBit h N
  by_cases hundef : w ∈ [0x0000#16, 0x0040#16, 0x0080#16, 0x00C0#16]
  · simp only [List.mem_cons, List.not_mem_nil, or_false] at hundef
    rcases hundef with rfl | rfl | rfl | rfl <;> exact .of_short hdec hlen rfl rfl
  · exact .of_short (hdec.trans (decodeEightBit_undefined hundef)) hlen (undefinedHalf_iff.mpr ⟨h, hundef⟩) rfl

theorem readsBack (w N : Word) : ReadsBack w N := by
  cases opcodeClass (opOf w) with
  | eightBit h => exact readsBack_eightBit ((opOf_bit0 w).symm.trans h) N
  | register row => exact assemble_fields w ▸ row.readsBack (fOf w) (dOf w) N
  | immediate row => exact assemble_fields w ▸ row.readsBack (fOf w) (dOf w) N
  | funct h => exact assemble_fields w ▸ h ▸ readsBack_funct (fOf w) (dOf w) N

/-- The encoding of an instruction has as many half-words as its length says (R97). -/
theorem encode_length (i : Instr) : (encode i).length = i.len := by cases i <;> rfl

end EncodeDecode

/-! ## The step -/

/-- An instruction that enters the Undefined-instruction trap completes, with the frame of a trap. -/
theorem completes_undefinedTrap {i : Instr} {s : State} (h : exec i s = .next (s.takeTrap .undefined)) :
    Completes i s (fun t => Trapped s t 0x0080#16) := ⟨_, h, s.trapped_takeTrap .undefined⟩

/-- A step executes what it fetched. -/
theorem step_of_fetch {i : Instr} {s : State} (h : s.fetch = .ok i) : step s = exec i s := by simp [step, h]

/-! ## The obligations -/

/-- Settles O55, row by row of the op-code map. -/
theorem decodeOfEncodeIsTheInstruction : Obligations.DecodeOfEncodeIsTheInstruction :=
  fun i after hwf => decode_encodeBytes i hwf after

/-- Settles O56, by the place of the op-code in the map; the length is that of the encoding. -/
theorem encodeOfDecodeIsTheHalfwords : Obligations.EncodeOfDecodeIsTheHalfwords := by
  intro w N
  obtain ⟨hwf, henc⟩ := readsBack w N
  refine ⟨hwf, henc, ?_⟩
  rw [← encode_length, henc, apply_ite List.length]
  rfl

/-- Settles O2: what the undefined half-words and the unused function codes decode to takes the trap. -/
theorem undefinedEncodingsTrap : Obligations.UndefinedEncodingsTrap := by
  refine ⟨fun s w N h => ?_, fun s d w i hi => ?_⟩
  · obtain ⟨hbit, hundef⟩ | ⟨hop, hcode⟩ := h
    · rw [decodeHalfwords_eightBit hbit, decodeEightBit_undefined hundef]
      exact completes_undefinedTrap rfl
    · obtain ⟨fn, row⟩ := unusedFunctRow_of_mem hcode
      rw [row.decodeHalfwords_eq hop rfl]
      exact completes_undefinedTrap (row.exec_eq _ s)
  · simp only [List.mem_cons, List.not_mem_nil, or_false] at hi
    rcases hi with rfl | rfl | rfl | rfl | rfl | rfl | rfl | rfl | rfl | rfl | rfl | rfl | rfl | rfl | rfl
    all_goals exact completes_undefinedTrap rfl

/-- Settles O53: the bytes are the encodings of these instructions. -/
theorem wordsOfTheSpecDecode : Obligations.WordsOfTheSpecDecode :=
  ⟨decode_of_encodeBytes rfl rfl, decode_of_encodeBytes rfl rfl, decode_of_encodeBytes rfl rfl,
    decode_of_encodeBytes rfl rfl, decode_of_encodeBytes rfl rfl⟩

/-- Settles O54: decoder and fetch read the same half-words. -/
theorem stepRunsTheDecodedInstruction : Obligations.StepRunsTheDecodedInstruction := by
  intro s w N i hw
  refine ⟨fun hlen hdec => step_of_fetch ?_, fun hlen hN hdec => step_of_fetch ?_⟩
  · rw [← List.append_nil (bytesOfWord w), decode_short hlen] at hdec
    cases hdec
    exact State.fetch_short hw hlen
  · rw [← List.append_nil (bytesOfWord N), decode_long hlen] at hdec
    cases hdec
    exact State.fetch_long hw hlen hN

end Sys2Proof
end

section
/-! PROOFS. The 8-bit instructions (40_eight_bit.md): where TRAP and BKPT enter, and what clearing the low bits of an
address does to ALGNW and ALGNC. -/

namespace Sys2Proof

open Machine Machine.Safety

/-! ## Alignment (R102, R103) -/

/-- Rounding down to a multiple of a unit that divides the modulus commutes with the reduction. -/
theorem mod_div_mul_of_dvd {a u m : Nat} (h : u ∣ m) : a % m / u * u = a / u * u % m := by
  obtain ⟨v, rfl⟩ := h
  rw [Nat.mod_mul_right_div_self, Nat.mul_comm u v, Nat.mul_mod_mul_right]

/-- From the address after its own, an instruction aligns to the next multiple of `2 ^ k` above its own, modulo
65536. -/
theorem alignUp_succ (a : Word) {k : Nat} (hk : k ≤ 16) :
    alignUp (a + 1#16) (2 ^ k) = BitVec.ofNat 16 ((a.toNat / 2 ^ k + 1) * 2 ^ k) := by
  have hpos : 0 < 2 ^ k := Nat.two_pow_pos k
  have hsum : (a + 1#16 + BitVec.ofNat 16 (2 ^ k - 1)).toNat = (a.toNat + 2 ^ k) % 2 ^ 16 := by
    rw [BitVec.add_assoc, ← BitVec.ofNat_add, Nat.add_sub_cancel' hpos, BitVec.toNat_add, BitVec.toNat_ofNat,
      Nat.add_mod_mod]
  apply BitVec.eq_of_toNat_eq
  rw [alignUp, clearLow_toNat, hsum, mod_div_mul_of_dvd (Nat.pow_dvd_pow 2 hk), Nat.add_div_right _ hpos,
    BitVec.toNat_ofNat]

/-! ## What completes -/

/-- An instruction that enters a trap completes, with the frame of that trap. -/
theorem completes_takeTrap {i : Instr} {s : State} {k : TrapKind} (h : exec i s = .next (s.takeTrap k)) :
    Completes i s (fun t => Trapped s t (Params.trapLocation k)) := ⟨_, h, s.trapped_takeTrap k⟩

/-- An instruction that aligns the PC to a unit of `2 ^ k` half-words completes at the next multiple of it; `target` is
the address as its rule writes it. -/
theorem completes_align {i : Instr} {s : State} {k : Nat} {target : Word} (hk : k ≤ 16)
    (h : exec i s = .next (s.jump target)) (htarget : target = alignUp (s.pc + 1#16) (2 ^ k)) :
    Completes i s (fun t => Jumped s t (BitVec.ofNat 16 ((s.pc.toNat / 2 ^ k + 1) * 2 ^ k)) ∧ t.pc = target) :=
  ⟨_, h, (htarget.trans (alignUp_succ s.pc hk)) ▸ s.jumped_jump target, s.jump_pc target⟩

/-! ## The obligations -/

/-- Settles O3: for the default word, R102's recipe is the alignment to 2. -/
theorem algnwGoesToNextEvenAddress : Obligations.AlgnwGoesToNextEvenAddress :=
  fun _ => completes_align (k := 1) (by decide) rfl rfl

/-- Settles O4: R103's recipe is the alignment to 16. -/
theorem algncGoesToNextLine : Obligations.AlgncGoesToNextLine :=
  ⟨decodeHalfwords_eightBit rfl, isLong_eightBit rfl, fun _ => completes_align (k := 4) (by decide) rfl rfl⟩

/-- Settles O1: both instructions are the entry of their trap (R100, R101). -/
theorem trapAndBreakpointEnterTheirLocations : Obligations.TrapAndBreakpointEnterTheirLocations :=
  ⟨fun N => ⟨decodeHalfwords_eightBit rfl N, decodeHalfwords_eightBit rfl N⟩, isLong_eightBit rfl, isLong_eightBit rfl,
    fun _ => ⟨completes_takeTrap (k := .trap) rfl, completes_takeTrap (k := .brkpt) rfl⟩⟩

end Sys2Proof
end

section
/-! PROOFS. The absolute load and store (41_io_abs.md): the tag word, and what LDT and STT do where there is memory. -/

namespace Sys2Proof

open Machine Machine.Safety

/-! ## The tag word (R118) -/

/-- The tag word by its fields, from bit 15 down, as R118 writes it. -/
theorem tagWord_eq_append (r : RegVal) : tagWord r = 0#12 ++ (r.exp ++ Params.typeCode r.ty) := by
  have fields : ∀ t e : BitVec 2, t.setWidth 16 <<< 0 ||| e.setWidth 16 <<< 2 = 0#12 ++ (e ++ t) := by decide
  exact fields (Params.typeCode r.ty) r.exp

/-- Bits 3:0 of the tag word are all that it carries. -/
theorem tagWord_low (r : RegVal) : (tagWord r).extractLsb' 0 4 = r.exp ++ Params.typeCode r.ty := by
  rw [tagWord_eq_append]
  exact BitVec.extractLsb'_append_eq_right

theorem tagWord_high (r : RegVal) : (tagWord r).extractLsb' 4 12 = 0#12 := by
  rw [tagWord_eq_append]
  exact BitVec.extractLsb'_append_eq_left

/-- The type tag and the exponent tag of a half-word, from its bits 3:0. -/
theorem tagFields_of_low {w : Word} {e c : BitVec 2} (h : w.extractLsb' 0 4 = e ++ c) :
    w.extractLsb' 0 2 = c ∧ w.extractLsb' 2 2 = e := by
  constructor
  · rw [← BitVec.extractLsb'_extractLsb'_of_le (len' := 4) (by decide), h, BitVec.extractLsb'_append_eq_right]
  · rw [← BitVec.extractLsb'_extractLsb'_of_le (len' := 4) (by decide), h, BitVec.extractLsb'_append_eq_left]

/-- No two types share a code (10_state.md R24). -/
theorem typeOfCode_typeCode (k : DType) : Params.typeOfCode (Params.typeCode k) = k := by cases k <;> rfl

/-- Bits 3:0 decide what the tags are set to. -/
theorem withTagWord_of_low {x w : Word} {r : RegVal} (h : w.extractLsb' 0 4 = (tagWord r).extractLsb' 0 4) :
    withTagWord x w = ⟨x, r.ty, r.exp⟩ := by
  obtain ⟨hty, hexp⟩ := tagFields_of_low (h.trans (tagWord_low r))
  simp only [withTagWord, Params.tagLayout, hty, hexp, typeOfCode_typeCode]

/-! ## LDT and STT -/

/-- Everything LDT does when both half-words can be read (R112). -/
theorem execLdt_next {s : State} {N v w : Word} (hv : s.memRead N = .ok v) (hw : s.memRead (N + 1#16) = .ok w)
    (d : Sel) : ∃ t, execLdt d N s = .next t ∧ UnlessPc d s t (Wrote s t 2 d (withTagWord v w) none) := by
  unfold execLdt
  refine illegalPc_next fun _ => ?_
  simp only [hv, hw]
  exact ⟨_, rfl, State.wrote_setReg rfl rfl (.refl s) 2 d _⟩

/-- Everything STT does when both stores go through, in their order (R116). -/
theorem execStt_next {s s1 s2 : State} {d : Sel} {N : Word} (h1 : s.memWrite N (s.reg d).data = .ok s1)
    (h2 : s1.memWrite (N + 1#16) (tagWord (s.reg d)) = .ok s2) {P : State → Prop} (h : P (s2.advance 2)) :
    ∃ t, execStt d N s = .next t ∧ UnlessPc d s t (P t) := by
  unfold execStt
  refine illegalPc_next fun _ => ?_
  simp only [h1, h2]
  exact ⟨_, rfl, h⟩

/-! ## The obligations -/

/-- Settles O16, from the fields of the tag word. -/
theorem tagWordLayout : Obligations.TagWordLayout := by
  refine ⟨fun r => ?_, fun r x w h => withTagWord_of_low h⟩
  obtain ⟨hty, hexp⟩ := tagFields_of_low (tagWord_low r)
  refine ⟨hexp, tagWord_high r, hty.trans ?_⟩
  cases r.ty <;> rfl

/-- Settles O13: LDT is the long form of IN, and its value is the data with the tags of the second half-word. -/
theorem ldtLoadsDataAndTags : Obligations.LdtLoadsDataAndTags :=
  ⟨ImmediateRow.inLdt.encodedLong, fun _ d _ _ _ hv hw => execLdt_next hv hw d⟩

/-- Settles O14: the two stores fall on different half-words, so the second leaves the first. -/
theorem sttStoresDataAndTags : Obligations.SttStoresDataAndTags := by
  refine ⟨ImmediateRow.outStt.encodedLong, fun s d N hN hN1 => ?_⟩
  refine execStt_next (State.memWrite_present _ hN) (State.memWrite_present _ hN1)
    ⟨?_, ?_, ?_, ?_, rfl, rfl, rfl, rfl⟩
  · have hne : N ≠ N + 1#16 := by simp
    simp only [State.advance_mem, Memory.readHalf_writeHalf, if_neg hne, if_true]
  · simp only [State.advance_mem, Memory.readHalf_writeHalf, if_true]
  · intro b h0 h1 h2 h3
    simp [Memory.read_writeHalf, h0, h1, h2, h3]
  · exact fun j hj => State.reg_eq_of_regs (s := s) (t := State.advance _ 2) rfl hj

/-- Settles O15: LDT reads the two half-words that STT leaves, and setting the tags undoes the tag word. -/
theorem sttThenLdtRestoresTheRegister : Obligations.SttThenLdtRestoresTheRegister := by
  intro s d e N hd he hN hN1
  obtain ⟨-, hstt⟩ := sttStoresDataAndTags
  obtain ⟨t, hexec, ht⟩ := hstt s d N hN hN1
  rw [UnlessPc, if_neg hd] at ht
  obtain ⟨hdata, htags, -⟩ := ht
  obtain ⟨u, hexec', hu⟩ := execLdt_next (State.memRead_ok.mpr ⟨hN, hdata⟩) (State.memRead_ok.mpr ⟨hN1, htags⟩) e
  rw [UnlessPc, if_neg he] at hu
  have hreg : u.reg e = withTagWord (s.reg d).data (tagWord (s.reg d)) := by rw [hu.regs e he, if_pos rfl]
  exact ⟨t, hexec, u, hexec', hreg.trans (withTagWord_of_low rfl)⟩

end Sys2Proof
end

section
/-! PROOFS. Branches and moves (42_branch_move.md): what the tests of the conditional branches say of D, and which
target and length each instruction gives to the shared operation. -/

namespace Sys2Proof

open Machine Machine.Safety

/-! ## The tests of D (R124 to R127) -/

theorem isZero_iff (x : Word) : isZero x = true ↔ x = 0x0000#16 := by simp [isZero]

theorem isNonZero_iff (x : Word) : isNonZero x = true ↔ x ≠ 0x0000#16 := by simp [isNonZero, isZero]

/-- Bit 15 is the weight of 32768. -/
theorem getLsbD_15_iff (x : Word) : x.getLsbD 15 = true ↔ 32768 ≤ x.toNat := by
  have hmsb : x.msb = x.getLsbD 15 := BitVec.msb_eq_getLsbD_last x
  rw [← hmsb, BitVec.msb_eq_decide, decide_eq_true_iff]

theorem isMinus_iff (x : Word) : isMinus x = true ↔ 32768 ≤ x.toNat := getLsbD_15_iff x

theorem isPlus_iff (x : Word) : isPlus x = true ↔ x.toNat < 32768 := by
  rw [isPlus, Bool.not_eq_true', ← Bool.not_eq_true, getLsbD_15_iff, Nat.not_le]

/-! ## What completes -/

/-- A conditional branch completes at its target where the condition `c` that its test decides holds of D, else after
its `len` half-words; D = 31 takes the trap. -/
theorem completes_branchIf {i : Instr} {s : State} {len : Nat} {d : Sel} {test : Word → Bool} {target : Word}
    {c : Prop} [Decidable c] (hexec : exec i s = s.branchIf len d test target)
    (htest : test (s.reg d).data = true ↔ c) :
    Completes i s (fun t => UnlessPc d s t
      (Jumped s t (if c then target else s.pc + BitVec.ofNat 16 len))) := by
  rw [Completes, hexec, ← if_congr htest rfl rfl]
  exact s.branchIf_next len d test target

/-- A read of S, with what selector 31 reads as written out (10_state.md R28, R31). -/
theorem reg_eq_ite (s : State) (r : Sel) : s.reg r = if r = pcSel then ⟨s.pc, .u, 0#2⟩ else s.reg r := by
  split
  next h => rw [h, State.reg_pc]
  next => rfl

/-! ## The obligations -/

/-- Settles O18: both forms are the subroutine call, each with its length and target. -/
theorem bsrLinksAndBranches : Obligations.BsrLinksAndBranches :=
  ⟨ImmediateRow.bsr.encodedShort, ImmediateRow.bsr.encodedLong,
    fun s d n N => ⟨s.call_next 1 d (relTarget s n), s.call_next 2 d N⟩⟩

/-- Settles O19: MOV is the write of D with the operand S as it reads. -/
theorem movCopiesDataAndTags : Obligations.MovCopiesDataAndTags := by
  refine ⟨RegisterRow.mov.encodedRR, fun s d r => ?_⟩
  rw [← reg_eq_ite s r]
  exact ⟨_, rfl, State.wrote_setReg rfl rfl (.refl s) 1 d (s.reg r)⟩

/-- Settles O20, from the test that each branch makes of D. -/
theorem branchesOnZero : Obligations.BranchesOnZero :=
  ⟨ImmediateRow.brz.encodedShort, ImmediateRow.brz.encodedLong,
    ImmediateRow.brnz.encodedShort, ImmediateRow.brnz.encodedLong,
    fun _ _ _ _ => ⟨completes_branchIf rfl (isZero_iff _), completes_branchIf rfl (isZero_iff _),
      completes_branchIf rfl (isNonZero_iff _), completes_branchIf rfl (isNonZero_iff _)⟩⟩

/-- Settles O21, from the test that each branch makes of D. -/
theorem branchesOnSign : Obligations.BranchesOnSign :=
  ⟨ImmediateRow.brp.encodedShort, ImmediateRow.brp.encodedLong,
    ImmediateRow.brm.encodedShort, ImmediateRow.brm.encodedLong,
    fun _ _ _ _ => ⟨completes_branchIf rfl (isPlus_iff _), completes_branchIf rfl (isPlus_iff _),
      completes_branchIf rfl (isMinus_iff _), completes_branchIf rfl (isMinus_iff _)⟩⟩

end Sys2Proof
end

section
/-! PROOFS. The ALU instructions (43_alu_reg.md, and the immediate forms of 44_alu_imm.md): the integer cores as exact
arithmetic, what the three forms of an instruction execute, and the completion of each. -/

namespace Sys2Proof.Machine

open Safety

/-! ## Half-words as integers -/

/-- The integers a half-word of type S stands for (00_scope.md R15). -/
theorem word_toInt_range (a : Word) : -32768 ≤ a.toInt ∧ a.toInt ≤ 32767 := by
  have hlo := a.le_toInt
  have hhi := a.toInt_lt
  omega

theorem toInt_ofInt_of_range {v : Int} (hlo : -32768 ≤ v) (hhi : v ≤ 32767) : (BitVec.ofInt 16 v).toInt = v :=
  BitVec.toInt_ofInt_eq_self (by decide) (by omega) (by omega)

theorem toInt_eq_zero_iff (a : Word) : a.toInt = 0 ↔ a = 0x0000#16 := BitVec.toInt_inj (y := 0x0000#16)

theorem toInt_eq_min_iff (a : Word) : a.toInt = -32768 ↔ a = 0x8000#16 := BitVec.toInt_inj (y := 0x8000#16)

theorem toInt_eq_neg_one_iff (a : Word) : a.toInt = -1 ↔ a = 0xFFFF#16 := BitVec.toInt_inj (y := 0xFFFF#16)

/-! ## AddCore and SubCore (R150, R151) -/

theorem addU_fst (a b : Word) : (addU a b).1 = a + b := by simp [addU, BitVec.ofNat_add]

theorem subU_fst (a b : Word) : (subU a b).1 = a - b := by
  apply BitVec.eq_of_toNat_eq
  simp only [subU, BitVec.toNat_ofInt, BitVec.toNat_sub]
  omega

theorem signedCarry_mem (v : Int) :
    signedCarry v = 0x0000#16 ∨ signedCarry v = 0x0001#16 ∨ signedCarry v = 0xFFFF#16 := by
  unfold signedCarry
  split
  · exact .inr (.inl rfl)
  · split
    · exact .inr (.inr rfl)
    · exact .inl rfl

theorem signedCarry_ne_zero_iff (v : Int) : signedCarry v ≠ 0x0000#16 ↔ ¬(-32768 ≤ v ∧ v ≤ 32767) := by
  unfold signedCarry
  split
  · exact iff_of_true (by decide) (by omega)
  · split
    · exact iff_of_true (by decide) (by omega)
    · exact iff_of_false (by decide) (by omega)

/-- Carry and low half-word are exact for every value that one carry reaches. -/
theorem signedCarry_exact {v : Int} (hlo : -98304 ≤ v) (hhi : v ≤ 98303) :
    (signedCarry v).toInt * 65536 + (BitVec.ofInt 16 v).toInt = v := by
  rw [BitVec.toInt_ofInt, Int.bmod]
  unfold signedCarry
  split
  · change 1 * 65536 + _ = v
    omega
  · split
    · change -1 * 65536 + _ = v
      omega
    · change 0 * 65536 + _ = v
      omega

theorem addS_exact (a b : Word) : (addS a b).2.toInt * 65536 + (addS a b).1.toInt = a.toInt + b.toInt := by
  have ha := word_toInt_range a
  have hb := word_toInt_range b
  exact signedCarry_exact (by omega) (by omega)

theorem subS_exact (a b : Word) : (subS a b).2.toInt * 65536 + (subS a b).1.toInt = a.toInt - b.toInt := by
  have ha := word_toInt_range a
  have hb := word_toInt_range b
  exact signedCarry_exact (by omega) (by omega)

/-! ## MulCore (R152) -/

theorem mulU_exact (a b : Word) : ((mulU a b).2 ++ (mulU a b).1).toNat = a.toNat * b.toNat := by
  have hp : a.toNat * b.toNat < 65536 * 65536 := Nat.mul_lt_mul'' a.isLt b.isLt
  have hhi : a.toNat * b.toNat / 65536 < 65536 := by omega
  have hlo : a.toNat * b.toNat % 65536 < 2 ^ 16 := Nat.mod_lt _ (by decide)
  simp only [mulU, BitVec.toNat_append, BitVec.toNat_ofNat, Nat.mod_eq_of_lt hhi, Nat.mod_eq_of_lt hlo]
  rw [← Nat.shiftLeft_add_eq_or_of_lt hlo, Nat.shiftLeft_eq]
  omega

theorem mulS_exact (a b : Word) : ((mulS a b).2 ++ (mulS a b).1).toInt = a.toInt * b.toInt := by
  have hjoin : (mulS a b).2 ++ (mulS a b).1 = BitVec.ofInt 32 (a.toInt * b.toInt) :=
    (BitVec.extractLsb'_append_extractLsb'_eq_extractLsb' rfl).trans BitVec.extractLsb'_eq_self
  have hlo := BitVec.le_toInt_mul_toInt (x := a) (y := b)
  have hhi := BitVec.toInt_mul_toInt_le (x := a) (y := b)
  rw [hjoin]
  exact BitVec.toInt_ofInt_eq_self (by decide) (by omega) (by omega)

/-! ## DivCore (R153) -/

theorem divU_of_ne_zero {a b : Word} (hb : b ≠ 0x0000#16) :
    (divU a b).1.toNat = a.toNat / b.toNat ∧ (divU a b).2.toNat = a.toNat % b.toNat := by
  have hne : b.toNat ≠ 0 := fun h => hb (BitVec.eq_of_toNat_eq h)
  have hq : a.toNat / b.toNat < 2 ^ 16 := lt_of_le_of_lt (Nat.div_le_self _ _) a.isLt
  have hm : a.toNat % b.toNat < 2 ^ 16 := lt_of_le_of_lt (Nat.mod_le _ _) a.isLt
  simp only [divU, if_pos hne, BitVec.toNat_ofNat, Nat.mod_eq_of_lt hq, Nat.mod_eq_of_lt hm, and_self]

theorem divU_zero (a : Word) : divU a 0x0000#16 = Config.divCorner a 0x0000#16 .u := rfl

theorem divS_of_nonneg {a b : Word} (ha : 0 ≤ a.toInt) (hb : 0 < b.toInt) :
    (divS a b).1.toInt = a.toInt / b.toInt ∧ (divS a b).2.toInt = a.toInt % b.toInt := by
  have hdiv : divS a b = (BitVec.ofInt 16 (a.toInt / b.toInt), BitVec.ofInt 16 (a.toInt % b.toInt)) :=
    if_pos ⟨ha, hb⟩
  have hra := word_toInt_range a
  have hrb := word_toInt_range b
  have hq0 : 0 ≤ a.toInt / b.toInt := Int.ediv_nonneg ha hb.le
  have hqa : a.toInt / b.toInt ≤ a.toInt := Int.ediv_le_self _ ha
  have hm0 : 0 ≤ a.toInt % b.toInt := Int.emod_nonneg _ hb.ne'
  have hmb : a.toInt % b.toInt < b.toInt := Int.emod_lt_of_pos _ hb
  rw [hdiv]
  exact ⟨toInt_ofInt_of_range (by omega) (by omega), toInt_ofInt_of_range (by omega) (by omega)⟩

/-- The quotient of an exact division fits, but for -32768 / -1. -/
theorem exact_quotient_range {a b : Word} {k : Int} (hb : b.toInt ≠ 0) (hk : a.toInt = b.toInt * k)
    (hc : ¬(a.toInt = -32768 ∧ b.toInt = -1)) : -32768 ≤ k ∧ k ≤ 32767 := by
  have hra := word_toInt_range a
  have habs : k.natAbs ≤ a.toInt.natAbs := by
    rw [hk, Int.natAbs_mul]
    exact Nat.le_mul_of_pos_left _ (Int.natAbs_pos.mpr hb)
  have hne : k ≠ 32768 := by
    rintro rfl
    omega
  omega

theorem divS_of_dvd {a b : Word} (hb : b ≠ 0x0000#16) (hdvd : b.toInt ∣ a.toInt)
    (hc : ¬(a = 0x8000#16 ∧ b = 0xFFFF#16)) :
    a.toInt = (divS a b).1.toInt * b.toInt ∧ (divS a b).2 = 0x0000#16 := by
  rw [← toInt_eq_min_iff, ← toInt_eq_neg_one_iff] at hc
  rw [ne_eq, ← toInt_eq_zero_iff] at hb
  have hm : a.toInt % b.toInt = 0 := Int.emod_eq_zero_of_dvd hdvd
  have hdiv : divS a b = (BitVec.ofInt 16 (a.toInt / b.toInt), 0x0000#16) := by
    unfold divS
    split
    · rw [hm]; rfl
    · exact if_pos ⟨hb, hm, hc⟩
  have hq := exact_quotient_range hb (Int.mul_ediv_cancel' hdvd).symm hc
  rw [hdiv]
  exact ⟨by rw [toInt_ofInt_of_range hq.1 hq.2, Int.ediv_mul_cancel hdvd], rfl⟩

/-- The cases that R153 leaves open on type S (P2). -/
theorem divS_open {a b : Word} (h : b = 0x0000#16 ∨ (a.toInt < 0 ∨ b.toInt < 0) ∧ ¬ b.toInt ∣ a.toInt ∨
    a = 0x8000#16 ∧ b = 0xFFFF#16) : divS a b = Config.divCorner a b .s := by
  rw [← toInt_eq_zero_iff, ← toInt_eq_min_iff, ← toInt_eq_neg_one_iff, Int.dvd_iff_emod_eq_zero] at h
  unfold divS
  rw [if_neg (by omega), if_neg (by omega)]

/-! ## What the three forms execute (R140 to R145, R160, R162 to R165) -/

section Forms

variable {reg : Sel → Sel → Instr} {short : Sel → BitVec 5 → Instr} {long : Sel → Word → Instr} {s : State} {d : Sel}
  {i : Instr} {len : Nat} {y : Word}

/-- What holds of each of the three forms holds of an instruction in one of them. -/
theorem Safety.AluForm.elim {P : Instr → Nat → Word → Prop} (h : AluForm reg short long s d i len y)
    (hreg : ∀ r, (s.reg d).ty = (s.reg r).ty → P (reg d r) 1 (s.reg r).data)
    (hshort : ∀ n : BitVec 5, P (short d n) 1 (n.signExtend 16)) (hlong : ∀ N, P (long d N) 2 N) : P i len y := by
  obtain ⟨r, rfl, hty, rfl, rfl⟩ | ⟨n, rfl, rfl, rfl⟩ | ⟨_, rfl, rfl, rfl⟩ := h
  · exact hreg r hty.symm
  · exact hshort n
  · exact hlong _

/-- None of the three forms is SHFT, where none of their constructors is. -/
theorem Safety.AluForm.ne_shft {n : BitVec 5} (h : AluForm reg short long s d i len y) (hreg : ∀ r, reg d r ≠ .shft d n)
    (hshort : ∀ m, short d m ≠ .shft d n) (hlong : ∀ N, long d N ≠ .shft d n) : i ≠ .shft d n :=
  h.elim (P := fun i _ _ => i ≠ .shft d n) (fun r _ => hreg r) hshort hlong

/-- ADD and ADDI add the second operand to D (R142, R162). -/
theorem exec_add (h : AluForm .add .addiShort .addiLong s d i len y) :
    exec i s = s.arith .add len d (s.reg d).data y :=
  h.elim (P := fun i len y => exec i s = s.arith .add len d (s.reg d).data y)
    (fun _ hty => State.sameType_same hty _) (fun _ => rfl) (fun _ => rfl)

/-- SUB and SUBI, with `SUB_ORDER = reverse`, subtract D from the second operand (R143, R163, log 6). -/
theorem exec_sub (h : AluForm .sub .subiShort .subiLong s d i len y) :
    exec i s = s.arith .sub len d y (s.reg d).data :=
  h.elim (P := fun i len y => exec i s = s.arith .sub len d y (s.reg d).data)
    (fun _ hty => State.sameType_same hty _) (fun _ => rfl) (fun _ => rfl)

/-- MUL and MULI multiply, after the test of D = 31 (R144, R164). -/
theorem exec_mul (h : AluForm .mul .muliShort .muliLong s d i len y) :
    exec i s = illegalPc d s (s.arith .mul len d (s.reg d).data y) :=
  h.elim (P := fun i len y => exec i s = illegalPc d s (s.arith .mul len d (s.reg d).data y))
    (fun _ hty => congrArg (illegalPc d s) (State.sameType_same hty _)) (fun _ => rfl) (fun _ => rfl)

/-- DIV and DIVI divide D by the second operand, after the test of D = 31 (R145, R165). -/
theorem exec_div (h : AluForm .div .diviShort .diviLong s d i len y) :
    exec i s = illegalPc d s (s.arith .div len d (s.reg d).data y) :=
  h.elim (P := fun i len y => exec i s = illegalPc d s (s.arith .div len d (s.reg d).data y))
    (fun _ hty => congrArg (illegalPc d s) (State.sameType_same hty _)) (fun _ => rfl) (fun _ => rfl)

end Forms

/-! ## What completes -/

section Completes

variable {s : State} {d : Sel} {i : Instr} {op : ArithOp} {len : Nat} {a b : Word}

/-- The PC reads as type U (10_state.md R31). -/
theorem ne_pcSel_of_signed (h : (s.reg d).ty = .s) : d ≠ pcSel := by
  rintro rfl
  cases h

theorem ne_pcSel_of_float (h : (s.reg d).ty.isFloat = true) : d ≠ pcSel := by
  rintro rfl
  cases h

theorem illegalPc_of_ne (hd : d ≠ pcSel) (body : Result) : illegalPc d s body = body := if_neg hd

theorem completes_arith_u (hu : (s.reg d).ty = .u) (hexec : exec i s = s.arith op len d a b) :
    Completes i s (fun t => Wrote s t len d ⟨(arithU op a b).1, .u, (s.reg d).exp⟩
      (some ⟨(arithU op a b).2, .u, 0#2⟩)) := by
  rw [Completes, hexec]
  exact State.arith_u hu op len a b

theorem completes_arith_s (hs : (s.reg d).ty = .s) (hexec : exec i s = s.arith op len d a b) :
    Completes i s (fun t => Wrote s t len d ⟨(arithS op a b).1, .s, (s.reg d).exp⟩
      (some ⟨(arithS op a b).2, .s, 0#2⟩)) := by
  rw [Completes, hexec]
  exact State.arith_s hs op len a b

/-- MUL and DIV test D = 31 first. -/
theorem completes_guarded_u (hu : (s.reg d).ty = .u) (hexec : exec i s = illegalPc d s (s.arith op len d a b)) :
    Completes i s (fun t => UnlessPc d s t (Wrote s t len d ⟨(arithU op a b).1, .u, (s.reg d).exp⟩
      (some ⟨(arithU op a b).2, .u, 0#2⟩))) := by
  rw [Completes, hexec]
  exact illegalPc_next fun _ => State.arith_u hu op len a b

/-- On type S the test of D = 31 finds nothing. -/
theorem completes_guarded_s (hs : (s.reg d).ty = .s) (hexec : exec i s = illegalPc d s (s.arith op len d a b)) :
    Completes i s (fun t => Wrote s t len d ⟨(arithS op a b).1, .s, (s.reg d).exp⟩
      (some ⟨(arithS op a b).2, .s, 0#2⟩)) :=
  completes_arith_s hs (hexec.trans (illegalPc_of_ne (ne_pcSel_of_signed hs) _))

/-- What completes whatever D is completes for every D but 31. -/
theorem completes_unlessPc {P : State → Prop} (hd : d ≠ pcSel) (h : Completes i s P) :
    Completes i s (fun t => UnlessPc d s t (P t)) := by
  simpa only [UnlessPc, if_neg hd] using h

/-- On a float D an operation other than SHFT leaves open values, with the tags that the rules state (log 7). -/
theorem completes_arith_float (hf : (s.reg d).ty.isFloat = true) (hi : ∀ n, i ≠ .shft d n)
    (hexec : exec i s = s.arith op len d a b) :
    ∃ (v : RegVal) (w : Word), v.ty = (s.reg d).ty ∧
      (∀ n : BitVec 5, i = .shft d n → v.exp = (s.reg d).exp ∧ w = Config.shftResidue (s.reg d).data n (s.reg d).ty) ∧
      Completes i s (fun t => Wrote s t len d v (some ⟨w, (s.reg d).ty, 0#2⟩)) := by
  refine ⟨s.freeReg 0 (s.reg d).ty, s.freeData 1, rfl, fun n hn => absurd hn (hi n), ?_⟩
  rw [Completes, hexec]
  exact State.arith_float hf op len a b

end Completes

/-! ## The obligations -/

/-- Settles O6: the test of the types is the first of ADD and SUB, and comes after that of D = 31 in MUL and DIV. -/
theorem typesThatDifferTrap : Obligations.TypesThatDifferTrap := by
  intro s d r hty
  have htrap (body : Result) : ∃ t, s.sameType d r body = .next t ∧ Trapped s t 0x0080#16 :=
    ⟨_, State.sameType_differ hty body, s.trapped_takeTrap .undefined⟩
  exact ⟨htrap _, htrap _, illegalPc_next fun _ => htrap _, illegalPc_next fun _ => htrap _⟩

/-- Settles O30, from the exactness of the signed carry. -/
theorem addCoreIsExact : Obligations.AddCoreIsExact :=
  fun a b => ⟨⟨BitVec.toNat_ofNat _ _, rfl⟩, rfl, rfl, (addS_exact a b).symm, signedCarry_ne_zero_iff _⟩

/-- Settles O22, by AddCore on type U. -/
theorem addUnsignedResult : Obligations.AddUnsignedResult := by
  intro s d i len y hu h
  rw [← addU_fst]
  exact completes_arith_u hu (exec_add h)

/-- Settles O23, by AddCore on type S. -/
theorem addSignedResult : Obligations.AddSignedResult :=
  fun _ _ _ _ _ hs h => ⟨_, _, signedCarry_mem _, addS_exact _ _, completes_arith_s hs (exec_add h)⟩

/-- Settles O24, by SubCore on type U. -/
theorem subUnsignedResult : Obligations.SubUnsignedResult := by
  intro s d i len y hu h
  rw [← subU_fst]
  exact completes_arith_u hu (exec_sub h)

/-- Settles O25, by SubCore on type S. -/
theorem subSignedResult : Obligations.SubSignedResult :=
  fun _ _ _ _ _ hs h => ⟨_, _, signedCarry_mem _, subS_exact _ _, completes_arith_s hs (exec_sub h)⟩

/-- Settles O26, by MulCore on either type. -/
theorem mulGivesTheExactProduct : Obligations.MulGivesTheExactProduct := by
  intro s d i len y h
  refine ⟨fun hu => ?_, fun hs => ?_⟩
  · exact ⟨_, _, mulU_exact _ _, completes_guarded_u hu (exec_mul h)⟩
  · exact ⟨_, _, mulS_exact _ _, completes_unlessPc (ne_pcSel_of_signed hs) (completes_guarded_s hs (exec_mul h))⟩

/-- Settles O27, by DivCore on type U. -/
theorem divUnsignedResult : Obligations.DivUnsignedResult := by
  intro s d i len y hu hy h
  obtain ⟨hq, hm⟩ := divU_of_ne_zero (a := (s.reg d).data) hy
  have hpos : 0 < y.toNat := Nat.pos_of_ne_zero fun h0 => hy (BitVec.eq_of_toNat_eq h0)
  refine ⟨(divU (s.reg d).data y).1, (divU (s.reg d).data y).2, ?_, ?_, completes_guarded_u hu (exec_div h)⟩
  · rw [hq, hm, Nat.div_add_mod']
  · exact hm ▸ Nat.mod_lt _ hpos

/-- Settles O28, by the two cases of DivCore on type S that R153 determines. -/
theorem divSignedResult : Obligations.DivSignedResult := by
  intro s d i len y hs h
  have hdiv := completes_guarded_s hs (exec_div h)
  refine ⟨fun ha hy => ?_, fun hy hdvd hc => ?_⟩
  · obtain ⟨hq, hm⟩ := divS_of_nonneg ha hy
    refine ⟨(divS (s.reg d).data y).1, (divS (s.reg d).data y).2, ?_, ?_, ?_, hdiv⟩
    · rw [hq, hm, Int.ediv_mul_add_emod]
    · exact hm ▸ Int.emod_nonneg _ hy.ne'
    · exact hm ▸ Int.emod_lt_of_pos _ hy
  · obtain ⟨hq, hm⟩ := divS_of_dvd hy hdvd hc
    exact ⟨_, hq, hm ▸ hdiv⟩

/-- Settles O29, by the cases of DivCore that are P2. -/
theorem divOpenCornersComplete : Obligations.DivOpenCornersComplete := by
  intro s d i len y h
  refine ⟨?_, fun hs hcorner => ?_⟩
  · rintro hu rfl
    rw [← divU_zero]
    exact completes_guarded_u hu (exec_div h)
  · rw [← divS_open hcorner]
    exact completes_guarded_s hs (exec_div h)

/-- Settles O32: each of the three is the test of D = 31 and the write of the pattern. -/
theorem logicOnRegisters : Obligations.LogicOnRegisters :=
  ⟨RegisterRow.and.encodedRR, RegisterRow.or.encodedRR, RegisterRow.xor.encodedRR, fun s d _ =>
    ⟨illegalPc_next fun _ => s.setData_next 1 d _, illegalPc_next fun _ => s.setData_next 1 d _,
      illegalPc_next fun _ => s.setData_next 1 d _⟩⟩

/-- Settles O34: the residue register alone is written, with the difference for operands of one integer type. -/
theorem cmpPutsDMinusSIntoResidue : Obligations.CmpPutsDMinusSIntoResidue := by
  intro s d r
  refine ⟨fun hty hint => illegalPc_next fun _ => ?_, fun hopen => ⟨s.freeData 0, illegalPc_next fun _ => ?_⟩⟩
  · rw [if_pos ⟨hty, hint⟩]
    exact State.setResidue_next rfl rfl (.refl s) 1 _
  · have hne : ¬((s.reg d).ty = (s.reg r).ty ∧ (s.reg d).ty.isFloat = false) := by
      rintro ⟨hty, hint⟩
      obtain h | h := hopen
      · exact h hty
      · simp [hint] at h
    rw [if_neg hne]
    exact State.setResidue_next (s := s) (u := s.draw 1) rfl rfl (s.draw_rest 1) 1 _

/-- Settles O51: the four operations by their law on a float D, SHFT by its own. -/
theorem floatArithmeticCompletes : Obligations.FloatArithmeticCompletes := by
  intro s d i len y hf h
  have hd : d ≠ pcSel := ne_pcSel_of_float hf
  obtain h | h | h | h | ⟨n, rfl, rfl⟩ := h
  · exact completes_arith_float hf (fun _ => h.ne_shft nofun nofun nofun) (exec_add h)
  · exact completes_arith_float hf (fun _ => h.ne_shft nofun nofun nofun) (exec_sub h)
  · exact completes_arith_float hf (fun _ => h.ne_shft nofun nofun nofun) ((exec_mul h).trans (illegalPc_of_ne hd _))
  · exact completes_arith_float hf (fun _ => h.ne_shft nofun nofun nofun) ((exec_div h).trans (illegalPc_of_ne hd _))
  · obtain ⟨t, hexec, ht⟩ := execShft_next s d n
    rw [UnlessPc, if_neg hd] at ht
    refine ⟨⟨(s.shifted (s.reg d) n).1, (s.reg d).ty, (s.reg d).exp⟩, _, rfl, ?_, t, hexec, ht⟩
    rintro m ⟨⟩
    exact ⟨rfl, rfl⟩

end Sys2Proof.Machine
end

section
/-! PROOFS. The immediate forms (44_alu_imm.md): the three forms of an instruction execute one function of length and
second operand, and a long form leaves what its register form leaves, but for the length. -/

namespace Sys2Proof.Machine

open Safety

/-! ## The three forms (R160) -/

section Forms

variable {reg : Sel → Sel → Instr} {short : Sel → BitVec 5 → Instr} {long : Sel → Word → Instr} {s : State} {d : Sel}
  {i : Instr} {len : Nat} {y : Word}

theorem Safety.AluForm.of_register {r : Sel} (hty : (s.reg r).ty = (s.reg d).ty) (hy : (s.reg r).data = y) :
    AluForm reg short long s d (reg d r) 1 y := .inl ⟨r, rfl, hty, rfl, hy.symm⟩

theorem Safety.AluForm.of_short (n : BitVec 5) : AluForm reg short long s d (short d n) 1 (n.signExtend 16) :=
  .inr (.inl ⟨n, rfl, rfl, rfl⟩)

theorem Safety.AluForm.of_long (N : Word) : AluForm reg short long s d (long d N) 2 N :=
  .inr (.inr ⟨N, rfl, rfl, rfl⟩)

/-- AND and ANDI, after the test of D = 31 (R146, R166). -/
theorem exec_and (h : AluForm .and .andiShort .andiLong s d i len y) :
    exec i s = illegalPc d s (s.setData len d ((s.reg d).data &&& y)) :=
  h.elim (P := fun i len y => exec i s = illegalPc d s (s.setData len d ((s.reg d).data &&& y)))
    (fun _ _ => rfl) (fun _ => rfl) (fun _ => rfl)

/-- OR and ORI, after the test of D = 31 (R147, R167). -/
theorem exec_or (h : AluForm .or .oriShort .oriLong s d i len y) :
    exec i s = illegalPc d s (s.setData len d ((s.reg d).data ||| y)) :=
  h.elim (P := fun i len y => exec i s = illegalPc d s (s.setData len d ((s.reg d).data ||| y)))
    (fun _ _ => rfl) (fun _ => rfl) (fun _ => rfl)

/-- XOR and XORI, after the test of D = 31 (R148, R168). -/
theorem exec_xor (h : AluForm .xor .xoriShort .xoriLong s d i len y) :
    exec i s = illegalPc d s (s.setData len d ((s.reg d).data ^^^ y)) :=
  h.elim (P := fun i len y => exec i s = illegalPc d s (s.setData len d ((s.reg d).data ^^^ y)))
    (fun _ _ => rfl) (fun _ => rfl) (fun _ => rfl)

/-- A bitwise instruction completes, with the pattern in D or in the Illegal trap. -/
theorem completes_setData {v : Word} (hexec : exec i s = illegalPc d s (s.setData len d v)) :
    Completes i s (fun t => UnlessPc d s t (Wrote s t len d ⟨v, (s.reg d).ty, (s.reg d).exp⟩ none)) := by
  rw [Completes, hexec]
  exact illegalPc_next fun _ => s.setData_next len d v

end Forms

/-! ## A long form beside its register form (R161) -/

/-- `t` and `u` are what a long form and a register form with the destination D = `d` leave: the same but for the PC,
which is one further on unless D is the PC. -/
def SameButLength (d : Sel) (t u : State) : Prop :=
  RegsSame u t ∧ RestSame u t ∧ (d ≠ pcSel → t.pc = u.pc + 1#16) ∧ (d = pcSel → t.pc = u.pc)

/-- Both results are next states, the same but for the length. -/
def AgreeButLength (d : Sel) (long register : Result) : Prop :=
  ∃ t, long = .next t ∧ ∃ u, register = .next u ∧ SameButLength d t u

section Agreement

variable {s t u : State} {d : Sel}

theorem Safety.RestSame.of_common (ht : RestSame s t) (hu : RestSame s u) : RestSame u t where
  save := ht.save.trans hu.save.symm
  mem b := (ht.mem b).trans (hu.mem b).symm
  inputs := ht.inputs.trans hu.inputs.symm
  events := ht.events.trans hu.events.symm

/-- Two instructions that write the same values differ in their length alone. -/
theorem Safety.Wrote.sameButLength {v : RegVal} {res : Option RegVal} (ht : Wrote s t 2 d v res)
    (hu : Wrote s u 1 d v res) : SameButLength d t u := by
  refine ⟨fun j hj => (ht.regs j hj).trans (hu.regs j hj).symm, ht.rest.of_common hu.rest, fun hd => ?_, fun hd => ?_⟩
  · have htwo : BitVec.ofNat 16 2 = BitVec.ofNat 16 1 + 1#16 := rfl
    rw [ht.pc, hu.pc, if_neg hd, if_neg hd, htwo, BitVec.add_assoc]
  · rw [ht.pc, hu.pc, if_pos hd, if_pos hd]

/-- The test of D = 31 comes before the length matters. -/
theorem AgreeButLength.illegalPc {long register : Result} (h : AgreeButLength d long register) :
    AgreeButLength d (illegalPc d s long) (illegalPc d s register) := by
  by_cases hd : d = pcSel
  · subst hd
    rw [illegalPc_pcSel, illegalPc_pcSel]
    exact ⟨_, rfl, _, rfl, fun _ _ => rfl, .refl _, fun hne => absurd rfl hne, fun _ => rfl⟩
  · rwa [illegalPc_of_ne hd, illegalPc_of_ne hd]

theorem agreeButLength_setData (s : State) (d : Sel) (v : Word) :
    AgreeButLength d (s.setData 2 d v) (s.setData 1 d v) := by
  obtain ⟨t, hlong, ht⟩ := s.setData_next 2 d v
  obtain ⟨u, hregister, hu⟩ := s.setData_next 1 d v
  exact ⟨t, hlong, u, hregister, ht.sameButLength hu⟩

/-- An integer D has one of the two types whose format the spec defines (10_state.md R24). -/
theorem type_eq_u_or_s {k : DType} (h : k.isFloat = false) : k = .u ∨ k = .s := by
  cases k with
  | u => exact .inl rfl
  | s => exact .inr rfl
  | f | f2 => cases h

/-- The values that an integer operation writes do not depend on the length. -/
theorem State.arith_integer (h : (s.reg d).ty.isFloat = false) (op : ArithOp) (a b : Word) :
    ∃ v w, ∀ len, ∃ t, s.arith op len d a b = .next t ∧ Wrote s t len d v (some w) := by
  obtain hu | hs := type_eq_u_or_s h
  · exact ⟨_, _, fun len => State.arith_u hu op len a b⟩
  · exact ⟨_, _, fun len => State.arith_s hs op len a b⟩

theorem agreeButLength_arith (h : (s.reg d).ty.isFloat = false) (op : ArithOp) (a b : Word) :
    AgreeButLength d (s.arith op 2 d a b) (s.arith op 1 d a b) := by
  obtain ⟨v, w, hwrote⟩ := State.arith_integer h op a b
  obtain ⟨t, hlong, ht⟩ := hwrote 2
  obtain ⟨u, hregister, hu⟩ := hwrote 1
  exact ⟨t, hlong, u, hregister, ht.sameButLength hu⟩

end Agreement

/-! ## Where the forms execute one function `f` of length and second operand -/

section OneFunction

variable {reg : Sel → Sel → Instr} {short : Sel → BitVec 5 → Instr} {long : Sel → Word → Instr} {s : State} {d r : Sel}
  {f : Nat → Word → Result} (hexec : ∀ {i len y}, AluForm reg short long s d i len y → exec i s = f len y)
  (hty : (s.reg r).ty = (s.reg d).ty)

include hexec hty

/-- The short form is the same step as the register form whose S holds I. -/
theorem exec_short_eq_register {n : BitVec 5} (hn : (s.reg r).data = n.signExtend 16) :
    exec (short d n) s = exec (reg d r) s :=
  (hexec (.of_short n)).trans (hexec (.of_register hty hn)).symm

/-- The long form completes as the register form whose S holds N does, but for the length. -/
theorem completes_long_as_register {N : Word} (hN : (s.reg r).data = N) (h : AgreeButLength d (f 2 N) (f 1 N)) :
    Completes (long d N) s (fun t => Completes (reg d r) s (SameButLength d t)) := by
  simp only [Completes, hexec (.of_long N), hexec (.of_register hty hN)]
  exact h

end OneFunction

/-! ## The obligations -/

/-- Settles O31: the three forms of each instruction execute one function, and what it writes does not depend on the
length. -/
theorem immediateFormsAgreeWithRegisterForms : Obligations.ImmediateFormsAgreeWithRegisterForms := by
  intro s d r hint hty
  refine ⟨fun n hn => ?_, fun N p hN hp => ?_⟩
  · exact ⟨exec_short_eq_register exec_add hty hn, exec_short_eq_register exec_sub hty hn,
      exec_short_eq_register exec_mul hty hn, exec_short_eq_register exec_div hty hn,
      exec_short_eq_register exec_and hty hn, exec_short_eq_register exec_or hty hn,
      exec_short_eq_register exec_xor hty hn⟩
  · simp only [List.mem_cons, List.not_mem_nil, or_false] at hp
    rcases hp with rfl | rfl | rfl | rfl | rfl | rfl | rfl
    · exact completes_long_as_register exec_add hty hN (agreeButLength_arith hint _ _ _)
    · exact completes_long_as_register exec_sub hty hN (agreeButLength_arith hint _ _ _)
    · exact completes_long_as_register exec_mul hty hN (agreeButLength_arith hint _ _ _).illegalPc
    · exact completes_long_as_register exec_div hty hN (agreeButLength_arith hint _ _ _).illegalPc
    · exact completes_long_as_register exec_and hty hN (agreeButLength_setData s d _).illegalPc
    · exact completes_long_as_register exec_or hty hN (agreeButLength_setData s d _).illegalPc
    · exact completes_long_as_register exec_xor hty hN (agreeButLength_setData s d _).illegalPc

/-- Settles O33: in both forms each of the three is the test of D = 31 and the write of the pattern. -/
theorem logicOnImmediates : Obligations.LogicOnImmediates := by
  refine ⟨ImmediateRow.andi.encodedShort, ImmediateRow.andi.encodedLong, ImmediateRow.ori.encodedShort,
    ImmediateRow.ori.encodedLong, ImmediateRow.xori.encodedShort, ImmediateRow.xori.encodedLong, ?_⟩
  intro s d len y a o x h
  obtain ⟨n, rfl, rfl, rfl, rfl, rfl⟩ | ⟨N, rfl, rfl, rfl, rfl, rfl⟩ := h
  · exact ⟨completes_setData (exec_and (.of_short n)), completes_setData (exec_or (.of_short n)),
      completes_setData (exec_xor (.of_short n))⟩
  · exact ⟨completes_setData (exec_and (.of_long _)), completes_setData (exec_or (.of_long _)),
      completes_setData (exec_xor (.of_long _))⟩

/-- Settles O35: both forms are the test of D = 31 and the comparison with I. -/
theorem cmpiPutsIMinusDIntoResidue : Obligations.CmpiPutsIMinusDIntoResidue := by
  intro s d i len y h
  have hexec : exec i s = illegalPc d s (s.cmpImm len d y) := by
    obtain ⟨n, rfl, rfl, rfl⟩ | ⟨N, rfl, rfl, rfl⟩ := h <;> rfl
  simp only [Completes, hexec]
  exact ⟨fun hint => illegalPc_next fun _ => State.cmpImm_integer hint len y,
    fun hfloat => ⟨s.freeData 0, illegalPc_next fun _ => State.cmpImm_float hfloat len y⟩⟩

end Sys2Proof.Machine
end

section
/-! PROOFS. Load immediate, load and store (45_load_imm_mem.md, with the loads, the store and the conversions of
47_funct.md that are like them): what takes a value into memory format and to an address, and what completes with an
open value. -/

namespace Sys2Proof.Machine

open Safety

/-! ## Stores (R185, R234) -/

/-- The half-word that an integer register becomes in memory is its data. -/
theorem State.toMemory_data {r : RegVal} (h : r.ty.isFloat = false) (s : State) : (s.toMemory r).1 = r.data := by
  rw [State.toMemory_integer h]

/-- Taking a register into memory format changes no state of the machine. -/
theorem State.toMemory_rest (s : State) (r : RegVal) : RestSame s (s.toMemory r).2 :=
  ⟨by simp, by simp, by simp, by simp⟩

/-- Everything the store of a register, after its conversion to memory format, does. -/
theorem State.stored_toMemory (s : State) {a : Word} (ha : Params.memPresent a = true) (r : RegVal) (len : Nat) :
    ∃ t, (s.toMemory r).2.memWrite a (s.toMemory r).1 = .ok t ∧ Stored s (t.advance len) len a (s.toMemory r).1 :=
  State.stored_memWrite ha (s.toMemory_regs r) (s.toMemory_pc r) (s.toMemory_rest r) (s.toMemory_mem r) len _

/-- Everything ST does where there is memory (R185). -/
theorem execSt_next {s : State} {r : Sel} (ha : Params.memPresent (s.reg r).data = true) (d : Sel) :
    ∃ t, execSt d r s = .next t ∧ UnlessPc d s t (Stored s t 1 (s.reg r).data (s.toMemory (s.reg d)).1) := by
  obtain ⟨t, hwrite, ht⟩ := s.stored_toMemory ha (s.reg d) 1
  refine illegalPc_next fun _ => ?_
  simp only [hwrite]
  exact ⟨_, rfl, ht⟩

/-- Everything fST does where there is memory (R234). -/
theorem execFst_next {s : State} {d : Sel} (ha : Params.memPresent (s.reg d).data = true) :
    ∃ t, execFst d s = .next t ∧ UnlessPc d s t (Stored s t 1 (s.reg d).data (s.toMemory (s.reg resSel)).1) := by
  obtain ⟨t, hwrite, ht⟩ := s.stored_toMemory ha (s.reg resSel) 1
  refine illegalPc_next fun _ => ?_
  simp only [hwrite]
  exact ⟨_, rfl, ht⟩

/-! ## What completes with an open value of a stated type (log 7) -/

section OpenValue

variable {i : Instr} {s : State} {d : Sel} {len : Nat} {k : DType}

/-- An instruction completes, with an open value of the type `k` in the selector `e` and the by-product `res`, or, for
D = 31, in the Illegal trap. -/
def CompletesOpen (i : Instr) (s : State) (d : Sel) (len : Nat) (e : Sel) (k : DType) (res : Option RegVal) : Prop :=
  ∃ v : RegVal, v.ty = k ∧ Completes i s (fun t => UnlessPc d s t (Wrote s t len e v res))

/-- LDIF and LDIF2 (R182, R183). -/
theorem completesOpen_loadImmFloat (hexec : exec i s = illegalPc d s (s.loadImmFloat len d k)) :
    CompletesOpen i s d len d k none := by
  refine ⟨s.freeReg 0 k, rfl, ?_⟩
  rw [Completes, hexec]
  exact illegalPc_next fun _ => s.loadImmFloat_next len d k

/-- The fLD functions (R232, R233). -/
theorem completesOpen_loadResidue {x : Word} (hx : s.memRead (s.reg d).data = .ok x)
    (hexec : exec i s = s.loadResidue d k) : CompletesOpen i s d 1 resSel k none := by
  refine ⟨⟨(s.toRegister x k).1, k, if k.isFloat then (s.freeReg 0 k).exp else 0#2⟩, rfl, ?_⟩
  rw [Completes, hexec]
  exact State.loadResidue_next hx k

/-- CVTF and CVTF2, with P4 in the residue register (R238, R239). -/
theorem completesOpen_convertFloat (hexec : exec i s = illegalPc d s (s.convertFloat d k)) :
    CompletesOpen i s d 1 d k (some (Config.cvtResidue (s.reg d).data (s.reg d).ty k)) := by
  refine ⟨s.freeReg 0 k, rfl, ?_⟩
  rw [Completes, hexec]
  exact illegalPc_next fun _ => s.convert_next d 1 (s.freeReg 0 k) k

end OpenValue

/-! ## The obligations -/

/-- Settles O40: both instructions are the load of a pattern, LDIS after the test of D = 31. -/
theorem loadImmediateSetsDataAndType : Obligations.LoadImmediateSetsDataAndType :=
  ⟨ImmediateRow.ldiu.encodedShort, ImmediateRow.ldiu.encodedLong,
    ImmediateRow.ldis.encodedShort, ImmediateRow.ldis.encodedLong,
    fun s d n N => ⟨s.loadImm_next 1 d (sext16 n) .u, s.loadImm_next 2 d N .u,
      illegalPc_next fun _ => s.loadImm_next 1 d (sext16 n) .s, illegalPc_next fun _ => s.loadImm_next 2 d N .s⟩⟩

/-- Settles O41, by the law of each of the three operations that leave an open value of a float type. -/
theorem floatLoadsAndConversionsComplete : Obligations.FloatLoadsAndConversionsComplete :=
  fun _ _ => ⟨fun _ => completesOpen_loadImmFloat rfl, fun _ => completesOpen_loadImmFloat rfl,
    fun _ => completesOpen_loadImmFloat rfl, fun _ => completesOpen_loadImmFloat rfl,
    fun _ hx => ⟨completesOpen_loadResidue hx rfl, completesOpen_loadResidue hx rfl⟩,
    completesOpen_convertFloat rfl, completesOpen_convertFloat rfl⟩

/-- Settles O42: the half-word is the data of an integer D, and the open conversion gives those of a float D. -/
theorem loadReadsMemoryAtS : Obligations.LoadReadsMemoryAtS := by
  intro s d r x hx
  refine ⟨fun hint => ?_, fun _ => ⟨_, execLd_next hx⟩⟩
  have hdata : (s.toRegister x (s.reg d).ty).1 = x := by rw [State.toRegister_integer hint]
  obtain ⟨t, hexec, ht⟩ := execLd_next (d := d) hx
  exact ⟨t, hexec, hdata ▸ ht⟩

/-- Settles O43: what is stored is the source in memory format, its data for an integer source. -/
theorem storesWriteOneHalfword : Obligations.StoresWriteOneHalfword :=
  fun s d => ⟨fun _ ha => ⟨_, fun hint => State.toMemory_data hint s, execSt_next ha d⟩,
    fun ha => ⟨_, fun hint => State.toMemory_data hint s, execFst_next ha⟩⟩

end Sys2Proof.Machine
end

section
/-! PROOFS. Shift and bit fields (46_shift_field.md): SHFT as multiplication and division by a power of two, and what
EXTRCT and INSRT do for a defined and for a reserved field descriptor. -/

namespace Sys2Proof.Machine

open Safety

/-! ## The shifted pattern (R202) -/

theorem shiftData_toNat_of_nonneg {n : BitVec 5} (hn : 0 ≤ n.toInt) (k : DType) (x : Word) :
    (shiftData k x n).toNat = x.toNat * 2 ^ n.toInt.toNat % 65536 := by
  rw [shiftData, if_pos hn, BitVec.toNat_shiftLeft, Nat.shiftLeft_eq]

theorem shiftData_u_toNat_of_neg {n : BitVec 5} (hn : n.toInt < 0) (x : Word) :
    (shiftData .u x n).toNat = x.toNat / 2 ^ (-n.toInt).toNat := by
  rw [shiftData, if_neg (Int.not_le.mpr hn), shiftRight, if_neg nofun, BitVec.toNat_ushiftRight,
    Nat.shiftRight_eq_div_pow]

theorem shiftData_s_toInt_of_neg {n : BitVec 5} (hn : n.toInt < 0) (x : Word) :
    (shiftData .s x n).toInt = x.toInt / 2 ^ (-n.toInt).toNat := by
  rw [shiftData, if_neg (Int.not_le.mpr hn), shiftRight, if_pos rfl, BitVec.toInt_sshiftRight,
    Int.shiftRight_eq_div_pow]
  norm_cast

/-! ## The field descriptor (R93, R200) -/

/-- The reserved bits are zero and the field ends at bit 15 or below. -/
def DescriptorDefined (N : Word) : Prop :=
  N.extractLsb' 10 4 = 0#4 ∧ N.extractLsb' 4 2 = 0#2 ∧ fieldStart N + fieldWidth N ≤ 16

theorem fieldDesc_of_defined {N : Word} (h : DescriptorDefined N) :
    fieldDesc N = some ⟨Params.typeOfCode (N.extractLsb' 14 2), fieldWidth N, fieldStart N⟩ := if_pos h

theorem fieldDesc_of_reserved {N : Word} (h : ¬DescriptorDefined N) : fieldDesc N = none := if_neg h

/-- The high bit of a type code tells the float types from the integer types. -/
theorem typeOfCode_isFloat (c : BitVec 2) : (Params.typeOfCode c).isFloat = c.getLsbD 1 := by
  revert c
  decide

/-- The low bit of the type code of an integer tells S from U. -/
theorem typeOfCode_integer {c : BitVec 2} (h : c.getLsbD 1 = false) :
    Params.typeOfCode c = if c.getLsbD 0 then .s else .u := by
  revert c
  decide

/-! ## The field operations bit by bit -/

theorem fieldSignExtend_bit (y : Word) {W b : Nat} (hb : b < 16) :
    (fieldSignExtend y W).getLsbD b = (y.getLsbD b || (!decide (b < W) && y.getLsbD (W - 1))) := by
  unfold fieldSignExtend
  split
  next htop =>
    rw [BitVec.getLsbD_or, BitVec.getLsbD_not, fieldMask_bit _ _ _ hb]
    simp [hb, htop]
  next htop => simp [htop]

/-- What EXTRCT gives: the field, sign extended or zero extended (R204). -/
def extracted (signed : Bool) (x : Word) (W M : Nat) : Word :=
  if signed then fieldSignExtend (fieldGet x W M) W else fieldGet x W M

theorem extractValue_integer (signed : Bool) (x : Word) (W M : Nat) :
    extractValue x ⟨if signed then .s else .u, W, M⟩ = some (extracted signed x W M) := by
  cases signed <;> rfl

theorem extractValue_float {k : DType} (h : k.isFloat = true) (x : Word) (W M : Nat) :
    extractValue x ⟨k, W, M⟩ = none := by
  cases k with
  | u | s => cases h
  | f | f2 => rfl

theorem extracted_bit (signed : Bool) (x : Word) {W M b : Nat} (hpos : 0 < W) (hW : W ≤ 16) (hb : b < 16) :
    (extracted signed x W M).getLsbD b =
      if b < W then x.getLsbD (M + b) else (signed && x.getLsbD (M + W - 1)) := by
  have htop : (fieldGet x W M).getLsbD (W - 1) = x.getLsbD (M + W - 1) := by
    rw [fieldGet_bit _ _ _ _ (by omega), Nat.add_sub_assoc hpos]
    simp [hpos]
  cases signed with
  | false => simp [extracted, fieldGet_bit _ _ _ _ hb]
  | true =>
    rw [extracted, if_pos rfl, fieldSignExtend_bit _ hb, htop, fieldGet_bit _ _ _ _ hb]
    by_cases hin : b < W <;> simp [hin]

theorem fieldPut_bit (x v : Word) (W M : Nat) {b : Nat} (hb : b < 16) :
    (fieldPut x v W M).getLsbD b = if M ≤ b ∧ b < M + W then v.getLsbD (b - M) else x.getLsbD b := by
  simp only [fieldPut, BitVec.getLsbD_or, BitVec.getLsbD_and, BitVec.getLsbD_not, BitVec.getLsbD_shiftLeft,
    fieldMask_bit _ _ _ hb, ← Bool.decide_and]
  split
  next hin => simp [hin, hb]
  next hout => simp [hout, hb]

/-- Putting a field back where it was taken from changes nothing, whatever its extension. -/
theorem fieldPut_extracted (signed : Bool) (x : Word) {W : Nat} (hpos : 0 < W) (hW : W ≤ 16) (M : Nat) :
    fieldPut x (extracted signed x W M) W M = x := by
  apply BitVec.eq_of_getLsbD_eq
  intro b hb
  rw [fieldPut_bit _ _ _ _ hb]
  split
  next hin =>
    obtain ⟨hlo, hhi⟩ := hin
    rw [extracted_bit _ _ hpos hW (by omega), if_pos (by omega), Nat.add_sub_cancel' hlo]
  next => rfl

/-! ## EXTRCT and INSRT (R204, R206) -/

section Fields

variable {s : State} {d : Sel} {N : Word}

theorem exec_extrct_reserved (hd : d ≠ pcSel) (hN : ¬DescriptorDefined N) :
    exec (.extrct d N) s = .refused (.fieldDescriptor N) := by
  change execExtrct d N s = _
  simp only [execExtrct, illegalPc_of_ne hd, fieldDesc_of_reserved hN]

theorem exec_insrt_reserved (hd : d ≠ pcSel) (hN : ¬DescriptorDefined N) :
    exec (.insrt d N) s = .refused (.fieldDescriptor N) := by
  change execInsrt d N s = _
  simp only [execInsrt, illegalPc_of_ne hd, fieldDesc_of_reserved hN]

theorem exec_extrct_float (hd : d ≠ pcSel) (hN : DescriptorDefined N) (huu : N.getLsbD 15 = true) :
    exec (.extrct d N) s = .refused (.extractType N) := by
  have hfloat : (Params.typeOfCode (N.extractLsb' 14 2)).isFloat = true := by simp [typeOfCode_isFloat, huu]
  change execExtrct d N s = _
  simp only [execExtrct, illegalPc_of_ne hd, fieldDesc_of_defined hN, extractValue_float hfloat]

/-- Everything EXTRCT does for a defined descriptor of type U or S. -/
theorem completes_extrct (hd : d ≠ pcSel) (hN : DescriptorDefined N) (huu : N.getLsbD 15 = false) :
    Completes (.extrct d N) s (fun t => Wrote s t 2 resSel
      ⟨extracted (N.getLsbD 14) (s.reg d).data (fieldWidth N) (fieldStart N),
        if N.getLsbD 14 then .s else .u, 0#2⟩ none) := by
  have hty : Params.typeOfCode (N.extractLsb' 14 2) = if N.getLsbD 14 then .s else .u := by
    rw [typeOfCode_integer (by simpa using huu)]
    simp
  change ∃ t, execExtrct d N s = .next t ∧ _
  simp only [execExtrct, illegalPc_of_ne hd, fieldDesc_of_defined hN, hty, extractValue_integer]
  exact State.setResidue_next rfl rfl (.refl s) 2 _

/-- Everything INSRT does for a defined descriptor. -/
theorem completes_insrt (hd : d ≠ pcSel) (hN : DescriptorDefined N) :
    Completes (.insrt d N) s (fun t => Wrote s t 2 d
      ⟨fieldPut (s.reg d).data (s.reg resSel).data (fieldWidth N) (fieldStart N),
        (s.reg d).ty, (s.reg d).exp⟩ none) := by
  change ∃ t, execInsrt d N s = .next t ∧ _
  simp only [execInsrt, illegalPc_of_ne hd, fieldDesc_of_defined hN]
  exact s.setData_next 2 d _

end Fields

/-! ## The obligations -/

/-- Settles O36, by the law of SHFT and the arithmetic of the pattern it writes. -/
theorem shiftMultipliesByAPowerOfTwo : Obligations.ShiftMultipliesByAPowerOfTwo := by
  intro s d n hint
  refine ⟨shiftData (s.reg d).ty (s.reg d).data n, fun hn => shiftData_toNat_of_nonneg hn _ _, fun hn hu => ?_,
    fun hn hs => ?_, ?_⟩
  · rw [hu]
    exact shiftData_u_toNat_of_neg hn _
  · rw [hs]
    exact shiftData_s_toInt_of_neg hn _
  · have hshft := execShft_next s d n
    rw [State.shifted_integer hint] at hshft
    exact hshft

/-- Settles O37: the Illegal trap comes first, then the two refusals, and what is left writes the extracted field. -/
theorem extractPutsTheFieldIntoResidue : Obligations.ExtractPutsTheFieldIntoResidue := by
  refine ⟨ImmediateRow.shftExtrct.encodedLong, ?_⟩
  rintro s d N _ _ rfl rfl
  refine ⟨fun hd => hd ▸ pcAsDestinationTraps (.extrct pcSel N) s rfl rfl, exec_extrct_reserved,
    fun hd hhigh hlow hend => exec_extrct_float hd ⟨hhigh, hlow, hend⟩, fun hd hhigh hlow hend huu => ?_⟩
  obtain ⟨hpos, hW⟩ := fieldWidth_range N
  exact ⟨_, fun b hb => extracted_bit _ _ hpos hW hb, completes_extrct hd ⟨hhigh, hlow, hend⟩ huu⟩

/-- Settles O38: the Illegal trap comes first, then the refusal, and what is left writes the field of D. -/
theorem insertPutsResidueBitsIntoTheField : Obligations.InsertPutsResidueBitsIntoTheField := by
  refine ⟨encodedLong_insrt, ?_⟩
  rintro s d N _ _ rfl rfl
  refine ⟨fun hd => hd ▸ pcAsDestinationTraps (.insrt pcSel N) s rfl rfl, exec_insrt_reserved,
    fun hd hhigh hlow hend => ?_⟩
  exact ⟨_, fun b hb => fieldPut_bit _ _ _ _ hb, completes_insrt hd ⟨hhigh, hlow, hend⟩⟩

/-- Settles O39: EXTRCT leaves D alone and its result in the residue register, so INSRT puts the field of D back. -/
theorem insertAfterExtractLeavesD : Obligations.InsertAfterExtractLeavesD := by
  intro s d N hpc hres hhigh hlow hend huu
  have hN : DescriptorDefined N := ⟨hhigh, hlow, hend⟩
  obtain ⟨hpos, hW⟩ := fieldWidth_range N
  obtain ⟨t, hextrct, ht⟩ := completes_extrct (s := s) hpc hN huu
  obtain ⟨u, hinsrt, hu⟩ := completes_insrt (s := t) hpc hN
  refine ⟨t, hextrct, u, hinsrt, ?_⟩
  change u.reg d = s.reg d
  have hD : t.reg d = s.reg d := by rw [ht.regs d hpc, if_neg hres, if_neg hres]
  have hR := (ht.regs resSel (by decide)).trans (if_pos rfl)
  rw [hu.regs d hpc, if_pos rfl, hD, hR, fieldPut_extracted _ _ hpos hW]

end Sys2Proof.Machine
end

section
/-! PROOFS. FUNCT (47_funct.md): the functions of one operand.  Each function is first equated, for the types and values
of D that a rule names, with one of the shared operations; what it does to the state is then the law of that
operation. -/

namespace Sys2Proof.Machine

open Safety

section Functions

variable {i : Instr} {s : State} {d : Sel}

/-! ## What completes -/

/-- A relabelling completes (R222 to R225). -/
theorem completes_setType {k : DType} (hexec : exec i s = s.setType d k) :
    Completes i s (fun t => UnlessPc d s t (Wrote s t 1 d ⟨(s.reg d).data, k, (s.reg d).exp⟩ none)) := by
  rw [Completes, hexec]
  exact s.setType_next d k

/-- An fLD function of an integer type loads the half-word as it stands (R230, R231). -/
theorem completes_loadResidue_integer {k : DType} {x : Word} (hk : k.isFloat = false)
    (hx : s.memRead (s.reg d).data = .ok x) (hexec : exec i s = s.loadResidue d k) :
    Completes i s (fun t => UnlessPc d s t (Wrote s t 1 resSel ⟨x, k, 0#2⟩ none)) := by
  have hload := State.loadResidue_next hx k
  rw [State.toRegister_integer hk, if_neg (by simp [hk])] at hload
  rwa [Completes, hexec]

/-- A conversion completes, with P4 in the residue register (R236, R237, log 15). -/
theorem completes_convert {n : Nat} {v : RegVal} {k : DType} (hexec : exec i s = illegalPc d s (s.convert d n v k)) :
    Completes i s (fun t => UnlessPc d s t
      (Wrote s t 1 d v (some (Config.cvtResidue (s.reg d).data (s.reg d).ty k)))) := by
  rw [Completes, hexec]
  exact illegalPc_next fun _ => s.convert_next d n v k

/-- Where D is not the PC, an instruction that tests it completes without the trap. -/
theorem completes_of_unlessPc {P : State → Prop} (hd : d ≠ pcSel) (h : Completes i s (fun t => UnlessPc d s t (P t))) :
    Completes i s P := by
  simpa only [UnlessPc, if_neg hd] using h

/-- ABS and NABS where the value is open: D keeps both tags (logs 7, 9, 10). -/
theorem completes_freeD (hd : d ≠ pcSel) (hexec : exec i s = illegalPc d s (s.freeD d)) :
    ∃ v : Word, Completes i s (fun t => Wrote s t 1 d ⟨v, (s.reg d).ty, (s.reg d).exp⟩ none) := by
  refine ⟨s.freeData 0, ?_⟩
  rw [Completes, hexec, illegalPc_of_ne hd]
  exact s.freeD_next d

/-! ## Absolute values (R226, R227) -/

/-- The float types, the complement of `type_eq_u_or_s` (10_state.md R24). -/
theorem type_eq_f_or_f2 {k : DType} (h : k.isFloat = true) : k = .f ∨ k = .f2 := by
  cases k with
  | f => exact .inl rfl
  | f2 => exact .inr rfl
  | u | s => cases h

/-- Every half-word but -32768 has an absolute value of 16 bits. -/
theorem toInt_abs_pattern {x : Word} (hx : x ≠ 0x8000#16) :
    (if x.toInt < 0 then BitVec.ofInt 16 (-x.toInt) else x).toInt = |x.toInt| := by
  obtain ⟨hlo, -⟩ := word_toInt_range x
  have hmin : x.toInt ≠ -32768 := mt (toInt_eq_min_iff x).mp hx
  split
  next hneg => rw [toInt_ofInt_of_range (by omega) (by omega), abs_of_neg hneg]
  next hpos => rw [abs_of_nonneg (by omega)]

/-- Every half-word has a negative absolute value of 16 bits. -/
theorem toInt_negAbs_pattern (x : Word) :
    (if 0 < x.toInt then BitVec.ofInt 16 (-x.toInt) else x).toInt = -|x.toInt| := by
  obtain ⟨-, hhi⟩ := word_toInt_range x
  split
  next hpos => rw [toInt_ofInt_of_range (by omega) (by omega), abs_of_pos hpos]
  next hneg => rw [abs_of_nonpos (by omega), neg_neg]

theorem exec_abs_unsigned (hu : (s.reg d).ty = .u) :
    exec (.abs d) s = illegalPc d s (s.setData 1 d (s.reg d).data) := by
  change execAbs d s = _
  simp only [execAbs, hu]

theorem exec_abs_signed (hs : (s.reg d).ty = .s) (hmin : (s.reg d).data ≠ 0x8000#16) :
    ∃ v : Word, v.toInt = |(s.reg d).data.toInt| ∧ exec (.abs d) s = illegalPc d s (s.setData 1 d v) := by
  refine ⟨_, toInt_abs_pattern hmin, ?_⟩
  change execAbs d s = _
  simp only [execAbs, hs, if_neg hmin]

theorem exec_nabs_signed (hs : (s.reg d).ty = .s) :
    ∃ v : Word, v.toInt = -|(s.reg d).data.toInt| ∧ exec (.nabs d) s = illegalPc d s (s.setData 1 d v) := by
  refine ⟨_, toInt_negAbs_pattern (s.reg d).data, ?_⟩
  change execNabs d s = _
  simp only [execNabs, hs]

/-- ABS where its value is open (logs 7, 10). -/
theorem exec_abs_open (h : (s.reg d).ty = .s ∧ (s.reg d).data = 0x8000#16 ∨ (s.reg d).ty.isFloat = true) :
    exec (.abs d) s = illegalPc d s (s.freeD d) := by
  change execAbs d s = _
  obtain ⟨hs, hmin⟩ | hfloat := h
  · simp only [execAbs, hs, hmin, if_true]
  · obtain hf | hf := type_eq_f_or_f2 hfloat <;> simp only [execAbs, hf]

/-- NABS where its value is open (logs 7, 9). -/
theorem exec_nabs_open (h : (s.reg d).ty = .u ∨ (s.reg d).ty.isFloat = true) :
    exec (.nabs d) s = illegalPc d s (s.freeD d) := by
  change execNabs d s = _
  obtain hu | hfloat := h
  · simp only [execNabs, hu]
  · obtain hf | hf := type_eq_f_or_f2 hfloat <;> simp only [execNabs, hf]

/-! ## Conversions to an integer type (R236, R237) -/

theorem exec_cvtu_keep (h : (s.reg d).ty = .u ∨ (s.reg d).ty = .s ∧ 0 ≤ (s.reg d).data.toInt) :
    exec (.cvtu d) s = illegalPc d s (s.convertKeep d .u) := by
  change execCvtu d s = _
  obtain hu | ⟨hs, hnonneg⟩ := h
  · simp only [execCvtu, hu]
  · simp only [execCvtu, hs, if_neg (not_lt.mpr hnonneg)]

theorem exec_cvts_keep (h : (s.reg d).ty = .s ∨ (s.reg d).ty = .u ∧ (s.reg d).data.toNat ≤ 32767) :
    exec (.cvts d) s = illegalPc d s (s.convertKeep d .s) := by
  change execCvts d s = _
  obtain hs | ⟨hu, hle⟩ := h
  · simp only [execCvts, hs]
  · simp only [execCvts, hu, if_neg (not_lt.mpr hle)]

/-- A conversion whose value is open: of an integer without a counterpart, or of a float (logs 7, 11).  The type is the
stated one, and an integer keeps its exponent tag. -/
def ConvertsOpen (i : Instr) (s : State) (d : Sel) (k : DType) : Prop :=
  ∃ v : RegVal, v.ty = k ∧ ((s.reg d).ty.isFloat = false → v.exp = (s.reg d).exp) ∧
    exec i s = illegalPc d s (s.convert d 1 v k)

theorem ConvertsOpen.of_noCounterpart {k : DType} (h : exec i s = illegalPc d s (s.convertNoCounterpart d k)) :
    ConvertsOpen i s d k := ⟨⟨s.freeData 0, k, (s.reg d).exp⟩, rfl, fun _ => rfl, h⟩

theorem ConvertsOpen.of_float {k : DType} (hfloat : (s.reg d).ty.isFloat = true)
    (h : exec i s = illegalPc d s (s.convertFloat d k)) : ConvertsOpen i s d k :=
  ⟨s.freeReg 0 k, rfl, fun hint => absurd hfloat (by simp [hint]), h⟩

theorem ConvertsOpen.completes {k : DType} (hd : d ≠ pcSel) (h : ConvertsOpen i s d k) :
    ∃ v : RegVal, v.ty = k ∧ ((s.reg d).ty.isFloat = false → v.exp = (s.reg d).exp) ∧
      Completes i s (fun t => Wrote s t 1 d v (some (Config.cvtResidue (s.reg d).data (s.reg d).ty k))) := by
  obtain ⟨v, hty, hexp, hexec⟩ := h
  exact ⟨v, hty, hexp, completes_of_unlessPc hd (completes_convert hexec)⟩

theorem convertsOpen_cvtu (h : (s.reg d).ty = .s ∧ (s.reg d).data.toInt < 0 ∨ (s.reg d).ty.isFloat = true) :
    ConvertsOpen (.cvtu d) s d .u := by
  obtain ⟨hs, hneg⟩ | hfloat := h
  · refine .of_noCounterpart ?_
    change execCvtu d s = _
    simp only [execCvtu, hs, if_pos hneg]
  · refine .of_float hfloat ?_
    change execCvtu d s = _
    obtain hf | hf := type_eq_f_or_f2 hfloat <;> simp only [execCvtu, hf]

theorem convertsOpen_cvts (h : (s.reg d).ty = .u ∧ 32767 < (s.reg d).data.toNat ∨ (s.reg d).ty.isFloat = true) :
    ConvertsOpen (.cvts d) s d .s := by
  obtain ⟨hu, habove⟩ | hfloat := h
  · refine .of_noCounterpart ?_
    change execCvts d s = _
    simp only [execCvts, hu, if_pos habove]
  · refine .of_float hfloat ?_
    change execCvts d s = _
    obtain hf | hf := type_eq_f_or_f2 hfloat <;> simp only [execCvts, hf]

end Functions

/-! ## The obligations -/

/-- Settles O44: a half-word loaded as an integer is not converted. -/
theorem typedLoadsWriteTheResidue : Obligations.TypedLoadsWriteTheResidue :=
  ⟨FunctRow.fldu.encodedFunct, FunctRow.flds.encodedFunct, fun _ _ _ hx =>
    ⟨completes_loadResidue_integer rfl hx rfl, completes_loadResidue_integer rfl hx rfl⟩⟩

/-- Settles O46: the four functions are one relabelling. -/
theorem typeCoercionsSetTheTypeTag : Obligations.TypeCoercionsSetTheTypeTag := by
  refine ⟨FunctRow.setu.encodedFunct, FunctRow.sets.encodedFunct, FunctRow.setf.encodedFunct,
    FunctRow.setf2.encodedFunct, fun s d p hp => ?_⟩
  simp only [List.mem_cons, List.not_mem_nil, or_false] at hp
  obtain rfl | rfl | rfl | rfl := hp
  all_goals exact completes_setType rfl

/-- Settles O47, from the patterns that ABS and NABS write and the tags that stay. -/
theorem absoluteValuesOfIntegers : Obligations.AbsoluteValuesOfIntegers := by
  refine fun s d => ⟨fun hu => completes_setData (exec_abs_unsigned hu), fun hs hmin => ?_, fun hs => ?_⟩
  · obtain ⟨v, hv, hexec⟩ := exec_abs_signed hs hmin
    exact ⟨v, hv, hs ▸ completes_of_unlessPc (ne_pcSel_of_signed hs) (completes_setData hexec)⟩
  · obtain ⟨v, hv, hexec⟩ := exec_nabs_signed hs
    exact ⟨v, hv, hs ▸ completes_of_unlessPc (ne_pcSel_of_signed hs) (completes_setData hexec)⟩

/-- Settles O48, by the layout of the tag word (O16). -/
theorem tagPutsTheTagWordIntoResidue : Obligations.TagPutsTheTagWordIntoResidue := by
  refine ⟨FunctRow.tag.encodedFunct, fun s d => ?_⟩
  obtain ⟨hlayout, -⟩ := tagWordLayout
  obtain ⟨hexp, hhigh, hty⟩ := hlayout (s.reg d)
  exact ⟨tagWord (s.reg d), hexp, hhigh, hty, illegalPc_next fun _ => State.setResidue_next rfl rfl (.refl s) 1 _⟩

/-- Settles O49: what ITAG writes to D holds, for the default `ITAG_SOURCE`, the tags of the residue register. -/
theorem itagCopiesTheResidueTags : Obligations.ItagCopiesTheResidueTags :=
  fun s d => illegalPc_next fun _ => ⟨_, rfl, State.wrote_setReg rfl rfl (.refl s) 1 d _⟩

/-- Settles O50: the two functions keep the data of exactly these values. -/
theorem integerConversionsKeepTheData : Obligations.IntegerConversionsKeepTheData :=
  fun _ _ => ⟨fun h => completes_convert (exec_cvtu_keep h), fun h => completes_convert (exec_cvts_keep h)⟩

/-- Settles O52: what is open is a free value of D, or a conversion to one. -/
theorem openOneOperandValuesComplete : Obligations.OpenOneOperandValuesComplete :=
  fun _ _ hd => ⟨fun h => completes_freeD hd (exec_abs_open h), fun h => completes_freeD hd (exec_nabs_open h),
    fun h => (convertsOpen_cvtu h).completes hd, fun h => (convertsOpen_cvts h).completes hd⟩

end Sys2Proof.Machine
end

section
/-! PROOFS. Exceptions and reset (60_exceptions.md, 70_reset_and_hazards.md): the return from a trap, the sequence that
resumes after it, and the PC after reset. -/

namespace Sys2Proof.Machine

open Safety

/-! ## Instructions one after the other -/

/-- What follows from what an instruction leaves, the completion of the next one included. -/
theorem Safety.Completes.mono {i : Instr} {s : State} {P Q : State → Prop} (h : Completes i s P)
    (hPQ : ∀ t, P t → Q t) : Completes i s Q := by
  obtain ⟨t, hexec, ht⟩ := h
  exact ⟨t, hexec, hPQ t ht⟩

/-- D, unless it is the PC, holds what was written, even where D is the residue register (10_state.md R26). -/
theorem Safety.Wrote.reg_dest {s t : State} {len : Nat} {d : Sel} {v : RegVal} {res : Option RegVal}
    (h : Wrote s t len d v res) (hd : d ≠ pcSel) : t.reg d = v := by
  rw [h.regs d hd, if_pos rfl]

/-! ## The return from a trap (R272) -/

/-- `IN pc, -1` is the return from a trap. -/
theorem exec_inPort_pc_savePort (s : State) : exec (.inPort pcSel Params.savePort) s = .next s.returnFromTrap := rfl

/-- The return from a trap is the transfer of control to the save register. -/
theorem State.jumped_returnFromTrap (s : State) : Jumped s s.returnFromTrap s.save := s.jumped_jump s.save

/-- The return from a trap leads back to where it was entered, with the registers as they were. -/
theorem completes_return_of_trapped {s t : State} {location : Word} (h : Trapped s t location) :
    Completes (.inPort pcSel Params.savePort) t (fun u => u.pc = s.pc ∧ RegsSame s u) := by
  have hret : Jumped t t.returnFromTrap t.save := t.jumped_returnFromTrap
  exact ⟨_, exec_inPort_pc_savePort t, hret.pc.trans h.save, fun j hj => (hret.regs j hj).trans (h.regs j hj)⟩

/-- Reading the save register into an ordinary register, adding n to it and moving it to the PC leads n half-words past
the saved address.  IN makes the register unsigned, so ADDI adds as U, whatever the register held. -/
theorem completes_resumePast (s : State) {d : Sel} (hd : d ≠ pcSel) (n : BitVec 5) :
    Completes (.inPort d Params.savePort) s (fun a => Completes (.addiShort d n) a (fun b =>
      Completes (.mov pcSel d) b (fun c => c.pc = s.save + n.signExtend 16))) := by
  obtain ⟨hin, -⟩ := savePortReadsAndWritesSave s d
  refine hin.mono fun a ha => ?_
  have hsaved : a.reg d = ⟨s.save, .u, 0#2⟩ := ha.reg_dest hd
  have hadd := addUnsignedResult a d (.addiShort d n) 1 _ (congrArg RegVal.ty hsaved) (.of_short n)
  refine hadd.mono fun b hb => ?_
  have hsum : (b.reg d).data = s.save + n.signExtend 16 := by rw [hb.reg_dest hd, hsaved]
  obtain ⟨-, hmov⟩ := movCopiesDataAndTags
  refine (hmov b pcSel d).mono fun c hc => ?_
  rw [hc.pc, if_pos rfl, if_neg hd, hsum]

/-! ## The obligations -/

/-- Settles O7: TRAP leaves its own address in the save register, from which either return starts. -/
theorem inToPcReturnsFromTrap : Obligations.InToPcReturnsFromTrap := by
  refine ⟨fun N => ?_, fun s => ⟨exec_inPort_pc_savePort s, s.jumped_returnFromTrap⟩, fun s => ?_⟩
  · obtain ⟨hdecode, -⟩ := ImmediateRow.inLdt.encodedShort pcSel Params.savePort N (by decide)
    exact hdecode
  · have htrap : Completes .trap s (fun t => Trapped s t 0x0020#16) := completes_takeTrap (k := .trap) rfl
    refine htrap.mono fun t ht => ⟨completes_return_of_trapped ht, ?_⟩
    exact ht.save ▸ completes_resumePast t (d := 1#5) (by decide) 1#5

/-- Settles O8: both parts are the definition of reset, which keeps every field but the PC by choice (log 22). -/
theorem resetSetsPcToZero : Obligations.ResetSetsPcToZero := ⟨rfl, fun _ => rfl⟩

end Sys2Proof.Machine
end
